-- ==== Sys2Proof/Word.lean ====
section
/-! DEFINITION. The word types of GF2ME and nothing more: rows, vectors, registers and commands are 32-bit
words (R14, R15, R21, R80), bus addresses are the 16-bit block-relative byte offsets of R50 and R51. -/

namespace Sys2Proof

/-- A 32-bit word: one matrix row, one vector, one register, one command (R14, R15, R80). -/
abbrev Word := BitVec 32

/-- One byte lane of a word (R60). -/
abbrev Byte := BitVec 8

/-- A byte offset within the block, 0x0000 to 0xFFFF (R50, R51). -/
abbrev Addr := BitVec 16

/-- A register number of either file, 0 to 7; all eight are legal (R20, R21, R82). -/
abbrev RegNo := Fin 8

end Sys2Proof
end

