-- ==== Sys2Proof/Config.lean ====
section
/-! DEFINITION. What an implementation fixes (R5 to R9, R27, R28) and the two draw sources the spec leaves
open (R10, R11), which are opaque: nothing can be proved of which draw they return. -/

namespace Sys2Proof

/-- The largest matrix dimension (R5). -/
def Config.nmax : Nat := 32

/-- The number of matrix registers (R7). -/
def Config.nreg : Nat := 8

/-- The number of vector registers (R7). -/
def Config.nvreg : Nat := 8

/-- The capacity of the operation log (R8). -/
def Config.logDepth : Nat := 1024

/-- The constant of the ID register: "GF2", revision 1 (R27). -/
def Config.idWord : Word := 0x47463201

/-- The constant of the PARAM register (R28). -/
def Config.paramWord : Word := 0x04008820

/-- DIM after reset (R6, R30, R40). -/
def Config.resetDim : BitVec 6 := 21

/-- ITER.K after reset (R9, R31, R40). -/
def Config.resetIter : BitVec 16 := 1000

/-- IndexSource (R10): the pair the entropy source returns at its i-th draw, before the constraint of R10 is
laid on it. A free value: it has no body. DESIGN CHOICE, safe: log 3. -/
opaque Config.indexSource : Nat → Nat × Nat

/-- KindSource (R11): the bit the entropy source returns at its i-th draw, true for Swap. A free value: it has
no body. DESIGN CHOICE, safe: log 3. -/
opaque Config.kindSource : Nat → Bool

end Sys2Proof
end

