-- ==== Sys2Proof/Machine/State.lean ====
section
/-! DEFINITION. The state of GF2ME as plain data (10_state.md R20 to R40), with the model's own fields apart,
the state after reset (R40, R230), and the reasons a step can stop, of which no rule of the spec gives one. -/

namespace Sys2Proof.Machine

/-- A matrix value: NMAX = 32 row words; cell (i, j) is bit j of row i (R15). -/
abbrev Mat := Vector Word 32

/-- The kind of an elementary operation (R130); the KIND bit is 1 for Swap (R26). -/
inductive OpKind where
  | addRow
  | swap
  deriving DecidableEq, Repr

/-- One entry of the operation log: the fields KIND, M and N of R26; bits [31:11] are always 0 and have no
storage. -/
structure LogEntry where
  kind : OpKind
  m : BitVec 5
  n : BitVec 5
  deriving DecidableEq, Repr

/-- What STATUS.ERRCODE can hold: the codes 0 to 6 of R200; 7 to 15 are never produced. -/
inductive ErrCode where
  | none
  | illegalOpcode
  | reservedField
  | indexRange
  | indexEqual
  | degenerate
  | logFull
  deriving DecidableEq, Repr

/-- The fields of STATUS (R33). The reserved bits read as 0 and have no storage. -/
structure Status where
  busy : Bool
  done : Bool
  err : Bool
  eq : Bool
  haz : Bool
  errcode : ErrCode
  deriving DecidableEq, Repr

/-- The fields of CTRL (R29). -/
structure Ctrl where
  ieDone : Bool
  ieErr : Bool
  ieHaz : Bool
  deriving DecidableEq, Repr

/-- What POLICY.MODE can hold: 0, 1 and 2; 3 is never stored (R32). -/
inductive Mode where
  | add
  | swap
  | mixed
  deriving DecidableEq, Repr

/-- The fields of POLICY (R32). -/
structure Policy where
  mode : Mode
  swapw : BitVec 8
  deriving DecidableEq, Repr

/-- How wide a bus transaction is. Only `word` is taken; the others are those `BusProtocol` may be able to
express (R52). -/
inductive AccessSize where
  | byte
  | half
  | word
  deriving DecidableEq, Repr

/-- The response of a bus transaction (R50). -/
inductive Resp where
  | okay
  | error
  deriving DecidableEq, Repr

/-- What the host is answered: a read has data and a response, a write a response (R50). -/
inductive Reply where
  | read (resp : Resp) (data : Word)
  | write (resp : Resp)
  deriving DecidableEq, Repr

/-- A bus transaction of the host, MemRead or MemWrite (R50). -/
inductive Transaction where
  | read (a : Addr) (size : AccessSize)
  | write (a : Addr) (size : AccessSize) (d : Word)
  deriving DecidableEq, Repr

/-- One event of the total order of R63: a host transaction, an Engine step, or a reset (R230). -/
inductive Event where
  | bus (t : Transaction)
  | engine
  | reset
  deriving DecidableEq, Repr

/-- The inputs of the draw sources (R10, R11, R38), the MODEL's own field. Draws supplied from outside are
taken first, oldest first; after them the free values of Config are applied to the counters, which each such
draw advances. DESIGN CHOICE, safe: log 3. -/
structure Draws where
  pairInputs : List (Nat × Nat)
  kindInputs : List Bool
  pairCount : Nat
  kindCount : Nat
  deriving DecidableEq, Repr

/-- The state of the machine. The last three fields are the MODEL's own (log 1, 7, 3). -/
structure State where
  /-- M0 to M7 (R20). -/
  mats : Vector Mat 8
  /-- V0 to V7 (R21). -/
  vecs : Vector Word 8
  /-- The valid entries of the operation log, first applied first; LOGLEN is its length (R25, R35; log 4). -/
  log : List LogEntry
  /-- CTRL (R29). -/
  ctrl : Ctrl
  /-- DIM.N (R30). -/
  dim : BitVec 6
  /-- ITER.K (R31). -/
  iter : BitVec 16
  /-- POLICY (R32). -/
  policy : Policy
  /-- STATUS (R33). -/
  status : Status
  /-- PEND (R37). -/
  pend : Word
  /-- PEND_V (R37). -/
  pendV : Bool
  /-- The events still to come, in the total order of R63 (log 1). -/
  events : List Event
  /-- What the bus has answered, newest first (R50; log 7). -/
  responses : List Reply
  /-- The inputs of the draw sources (log 3). -/
  draws : Draws
  deriving DecidableEq, Repr

/-- Why the machine stops. It never does: "GF2ME has no traps. An error never transfers control; it is
reported in STATUS" (60_exceptions.md), so there is no constructor and no fault is raised by anyone. Safe:
log 22. -/
inductive Fault where
  deriving DecidableEq, Repr

/-- Why an instruction has no meaning in the model. -/
inductive Refusal where
  /-- Raised by `exec` for a command whose meaning is not written; no arm raises it now. Safe: a run stops. -/
  | notModelled (mnemonic : String)
  deriving DecidableEq, Repr

/-- The all-zero matrix value. -/
def Mat.zero : Mat := Vector.replicate 32 0

/-- Every status bit 0 and ERRCODE 0 (R40). -/
def Status.zero : Status :=
  { busy := false, done := false, err := false, eq := false, haz := false, errcode := .none }

/-- No draw supplied and no free value taken yet. DESIGN CHOICE: log 3. -/
def Draws.start : Draws := { pairInputs := [], kindInputs := [], pairCount := 0, kindCount := 0 }

/-- The machine right after reset: the table of R40. PEND has no reset value in the spec (R37, R232);
DESIGN CHOICE 0, log 5. The model's own fields: DESIGN CHOICE, log 1, 3 and 7. -/
def State.reset : State where
  mats := Vector.replicate 8 Mat.zero
  vecs := Vector.replicate 8 0
  log := []
  ctrl := { ieDone := false, ieErr := false, ieHaz := false }
  dim := Config.resetDim
  iter := Config.resetIter
  policy := { mode := .add, swapw := 0 }
  status := Status.zero
  pend := 0
  pendV := false
  events := []
  responses := []
  draws := Draws.start

end Sys2Proof.Machine
end

