-- ==== Sys2Proof/Machine/Bits.lean ====
section
/-! DEFINITION. Bit notation (R14): masks, population count, parity, byte lanes, and a word built bit by bit. -/

namespace Sys2Proof.Machine

/-- `1 << i` (R14). -/
def oneBit (i : Nat) : Word := (1 : Word) <<< i

/-- `colmask(N) = (1 << N) - 1`, computed wide enough that `colmask(32) = 0xFFFF_FFFF` (R14). -/
def colmask (N : Nat) : Word := BitVec.ofNat 32 (2 ^ N - 1)

/-- The number of set bits (R14). -/
def popcount (w : Word) : Nat := (List.range 32).countP fun j => w.getLsbD j

/-- `popcount(w) mod 2` as a bit (R14). -/
def parity (w : Word) : Bool := popcount w % 2 == 1

/-- The word whose bit i, for i < `len`, is `f i`, and whose other bits are 0. -/
def wordOfBits (f : Nat → Bool) : Nat → Word
  | 0 => 0
  | len + 1 => if f len then wordOfBits f len ||| oneBit len else wordOfBits f len

/-- One flag at bit i of a register word. -/
def flagBit (i : Nat) (b : Bool) : Word := if b then oneBit i else 0

/-- Byte lane k of a word: bits `[8k+7 : 8k]` (R60). -/
def byteLane (w : Word) (k : Nat) : Byte := w.extractLsb' (8 * k) 8

/-- A word as the host sees it in bytes, lowest offset first (R60). -/
def wordBytes (w : Word) : List Byte := [byteLane w 0, byteLane w 1, byteLane w 2, byteLane w 3]

end Sys2Proof.Machine
end

