-- ==== Sys2Proof/Machine/Matrix.lean ====
section
/-! DEFINITION. The functions of the GF(2) matrix unit and of the elementary operation generator (R106 to
R109, R133 to R135, R151), and the row and column operations R136, R137 and R181 say they come to. A dimension
N is the value of DIM. -/

namespace Sys2Proof.Machine

/-- `row(X, i)`; a row past the last is 0 (R15). -/
def Mat.row (A : Mat) (i : Nat) : Word := A[i]?.getD 0

/-- `X[i][j] = row(X, i)[j]` (R15). -/
def Mat.cell (A : Mat) (i j : Nat) : Bool := (A.row i).getLsbD j

/-- The matrix value with the given rows. -/
def Mat.ofRows (f : Nat → Word) : Mat := Vector.ofFn fun i : Fin 32 => f i.val

/-- The matrix value with one row replaced. -/
def Mat.setRow (A : Mat) (i : Fin 32) (w : Word) : Mat := A.set i.val w

/-- XOR of the rows k < `len` of B that the bits of `sel` select (the inner loop of R106). -/
def xorSelected (B : Mat) (sel : Word) : Nat → Word
  | 0 => 0
  | len + 1 => if sel.getLsbD len then xorSelected B sel len ^^^ B.row len else xorSelected B sel len

/-- `MatMul(A, B, N)` (R106). -/
def matMul (A B : Mat) (N : Nat) : Mat :=
  Mat.ofRows fun i => if i < N then xorSelected B (A.row i) N else 0

/-- `Ident(N)` (R107). -/
def ident (N : Nat) : Mat := Mat.ofRows fun i => if i < N then oneBit i else 0

/-- `MatEq(A, B, N)` (R108). -/
def matEq (A B : Mat) (N : Nat) : Bool := (List.range N).all fun i => A.row i == B.row i

/-- `MatVec(A, v, N)` (R109). -/
def matVec (A : Mat) (v : Word) (N : Nat) : Word :=
  wordOfBits (fun i => decide (i < N) && parity (A.row i &&& v)) 32

/-- `SwapMat(N, m, n)` (R134). -/
def swapMat (N m n : Nat) : Mat :=
  Mat.ofRows fun i =>
    if i < N then (if i = m then oneBit n else if i = n then oneBit m else oneBit i) else 0

/-- `AddMat(N, m, n)` (R135). -/
def addMat (N m n : Nat) : Mat :=
  Mat.ofRows fun i => if i < N then (if i = m then oneBit m ||| oneBit n else oneBit i) else 0

/-- `Elem(e)` under dimension N (R133). It is a value for every entry; only valid ones occur (R158; log 9). -/
def elem (N : Nat) (e : LogEntry) : Mat :=
  match e.kind with
  | .swap => swapMat N e.m.toNat e.n.toNat
  | .addRow => addMat N e.m.toNat e.n.toNat

/-- `Step(X, e)`: one composer step, left multiplication (R151). -/
def composerStep (N : Nat) (X : Mat) (e : LogEntry) : Mat := matMul (elem N e) X N

/-- The entry a command's kind and indices make: `{KIND, M, N}`, the indices in their 5-bit fields (R26, R152). -/
def mkEntry (kind : OpKind) (m n : Nat) : LogEntry :=
  { kind := kind, m := BitVec.ofNat 5 m, n := BitVec.ofNat 5 n }

/-- A log entry as the word of R26. -/
def LogEntry.toWord (e : LogEntry) : Word :=
  BitVec.ofNat 32 ((match e.kind with | .swap => 1 | .addRow => 0) * 2 ^ 10 + e.m.toNat * 2 ^ 5 + e.n.toNat)

/-- The loop of KEYDERIVE from an accumulator: right multiplication in recorded order (R180). -/
def keyLoop (N : Nat) : Mat → List LogEntry → Mat
  | acc, [] => acc
  | acc, e :: es => keyLoop N (matMul acc (elem N e) N) es

/-- The key matrix of a log (R180). -/
def keyOf (N : Nat) (log : List LogEntry) : Mat := keyLoop N (ident N) log

/-- The operations of a list applied in order by composer steps: `E_{L-1} · … · E_0 · X` (R156). -/
def applyAll (N : Nat) (X : Mat) (es : List LogEntry) : Mat := es.foldl (composerStep N) X

/-- X with rows m and n exchanged (R136). -/
def rowSwap (X : Mat) (m n : Nat) : Mat :=
  Mat.ofRows fun i => if i = m then X.row n else if i = n then X.row m else X.row i

/-- X with `row(m) <- row(m) ^ row(n)` (R136). -/
def rowAdd (X : Mat) (m n : Nat) : Mat :=
  Mat.ofRows fun i => if i = m then X.row m ^^^ X.row n else X.row i

/-- A row word with bits m and n exchanged. -/
def swapBits (w : Word) (m n : Nat) : Word :=
  wordOfBits (fun j => if j = m then w.getLsbD n else if j = n then w.getLsbD m else w.getLsbD j) 32

/-- A row word with bit n replaced by bit n XOR bit m. -/
def addBit (w : Word) (m n : Nat) : Word :=
  wordOfBits (fun j => if j = n then w.getLsbD n ^^ w.getLsbD m else w.getLsbD j) 32

/-- X with columns m and n exchanged (R137). -/
def colSwap (X : Mat) (m n : Nat) : Mat := Mat.ofRows fun i => swapBits (X.row i) m n

/-- X with column n replaced by column n XOR column m (R137). -/
def colAdd (X : Mat) (m n : Nat) : Mat := Mat.ofRows fun i => addBit (X.row i) m n

/-- An entry as a row operation: what R136 says a composer step may be computed as. -/
def rowOp (X : Mat) (e : LogEntry) : Mat :=
  match e.kind with
  | .swap => rowSwap X e.m.toNat e.n.toNat
  | .addRow => rowAdd X e.m.toNat e.n.toNat

/-- An entry as a column operation: the first of the two computations of R181. -/
def colOp (X : Mat) (e : LogEntry) : Mat :=
  match e.kind with
  | .swap => colSwap X e.m.toNat e.n.toNat
  | .addRow => colAdd X e.m.toNat e.n.toNat

/-- The key by column operations in recorded order (R181, first form). -/
def keyByColumns (N : Nat) (log : List LogEntry) : Mat := log.foldl colOp (ident N)

/-- The key by left multiplication in reverse order (R181, second form). -/
def keyByReverse (N : Nat) (log : List LogEntry) : Mat := log.reverse.foldl (composerStep N) (ident N)

end Sys2Proof.Machine
end

