-- ==== Sys2Proof/Machine/Operands.lean ====
section
/-! DEFINITION. How a command reads its operands (R16, R82, R83): the dimension, a matrix register, a vector
register, a pair of row indices. No operand read can fail: all register numbers are legal (R82). -/

namespace Sys2Proof.Machine

/-- `N`, the value of DIM (R6). -/
def State.N (s : State) : Nat := s.dim.toNat

/-- `M[r]` (R16, R20). -/
def State.M (s : State) (r : RegNo) : Mat := s.mats[r.val]

/-- `V[r]` (R16, R21). -/
def State.V (s : State) (r : RegNo) : Word := s.vecs[r.val]

/-- LOGLEN as a count (R35). -/
def State.loglen (s : State) : Nat := s.log.length

/-- The checks of the row indices, INDEX_RANGE before INDEX_EQUAL (R131, R132, R152, R201). -/
def indexCheck (N m n : Nat) : ErrCode :=
  if N ≤ m ∨ N ≤ n then .indexRange else if m = n then .indexEqual else .none

end Sys2Proof.Machine
end

