-- ==== Sys2Proof/Machine/Flags.lean ====
section
/-! DEFINITION. The registers of fields as words and back: STATUS, CTRL, POLICY (R29, R32, R33), the error
codes (R200), the one condition flag EQ (R36) and the interrupt output (R39, R210). -/

namespace Sys2Proof.Machine

/-- The code of R200. -/
def ErrCode.code : ErrCode → Nat
  | .none => 0
  | .illegalOpcode => 1
  | .reservedField => 2
  | .indexRange => 3
  | .indexEqual => 4
  | .degenerate => 5
  | .logFull => 6

/-- STATUS as the host reads it; reserved bits read as 0 (R33). -/
def Status.toWord (t : Status) : Word :=
  flagBit 0 t.busy ||| flagBit 1 t.done ||| flagBit 2 t.err ||| flagBit 3 t.eq ||| flagBit 4 t.haz |||
    BitVec.ofNat 32 (t.errcode.code * 2 ^ 8)

/-- A write of `d` to STATUS: write 1 to clear DONE, ERR and HAZ; BUSY, EQ and ERRCODE ignore it (R33). -/
def Status.clearedBy (t : Status) (d : Word) : Status :=
  { t with
    done := t.done && !d.getLsbD 1
    err := t.err && !d.getLsbD 2
    haz := t.haz && !d.getLsbD 4 }

/-- CTRL as the host reads it (R29). -/
def Ctrl.toWord (c : Ctrl) : Word := flagBit 0 c.ieDone ||| flagBit 1 c.ieErr ||| flagBit 2 c.ieHaz

/-- CTRL after a write of `d`; reserved bits ignore it (R29). -/
def Ctrl.ofWord (d : Word) : Ctrl :=
  { ieDone := d.getLsbD 0, ieErr := d.getLsbD 1, ieHaz := d.getLsbD 2 }

/-- The number of a mode (R32). -/
def Mode.code : Mode → Nat
  | .add => 0
  | .swap => 1
  | .mixed => 2

/-- POLICY as the host reads it (R32). -/
def Policy.toWord (p : Policy) : Word :=
  BitVec.ofNat 32 (p.swapw.toNat * 2 ^ 8 + p.mode.code)

/-- MODE after a write of the two bits `b`: a write of 3 leaves it unchanged (R32). -/
def Mode.written (old : Mode) (b : Nat) : Mode :=
  match b with
  | 0 => .add
  | 1 => .swap
  | 2 => .mixed
  | _ => old

/-- POLICY after a write of `d` (R32). -/
def Policy.written (p : Policy) (d : Word) : Policy :=
  { mode := p.mode.written (d.extractLsb' 0 2).toNat, swapw := d.extractLsb' 8 8 }

/-- `STATUS.EQ <- b` (R36). -/
def State.setEq (s : State) (b : Bool) : State := { s with status := { s.status with eq := b } }

/-- The interrupt output, active high, a function of STATUS and CTRL (R39, R210). -/
def State.irq (s : State) : Bool :=
  (s.status.done && s.ctrl.ieDone) || (s.status.err && s.ctrl.ieErr) || (s.status.haz && s.ctrl.ieHaz)

end Sys2Proof.Machine
end

