-- ==== Sys2Proof/Machine/Ops.lean ====
section
/-! DEFINITION. The named operations on the state that the meanings and the bus share: register writes, the
log (R150, R160), a command's acceptance (R205), its completion with or without an error (R203, R206), a
broken BUSY rule (R239), a new run (R30) and reset (R230). -/

namespace Sys2Proof.Machine

/-- `M[r] <- X` (R16). -/
def State.setM (s : State) (r : RegNo) (X : Mat) : State := { s with mats := s.mats.set r.val X }

/-- `V[r] <- v` (R16). -/
def State.setV (s : State) (r : RegNo) (v : Word) : State := { s with vecs := s.vecs.set r.val v }

/-- Entries written at the end of the log, LOGLEN advancing by their number; the caller has checked that they
fit (R150). -/
def State.logAppend (s : State) (es : List LogEntry) : State := { s with log := s.log ++ es }

/-- `LOGLEN <- 0` (R160). -/
def State.logClear (s : State) : State := { s with log := [] }

/-- The draws a COMPOSE has taken are taken. -/
def State.setDraws (s : State) (d : Draws) : State := { s with draws := d }

/-- `STATUS.HAZ <- 1`, sticky (R239). -/
def State.setHaz (s : State) : State := { s with status := { s.status with haz := true } }

/-- A command is latched and its life cycle begins (R205, accepted). -/
def State.accept (s : State) (d : Word) : State :=
  { s with
    pend := d
    pendV := true
    status := { s.status with busy := true, done := false, err := false, errcode := .none } }

/-- A CMD write (R205): accepted while idle, otherwise discarded with HAZ set. -/
def State.presentCommand (s : State) (d : Word) : State :=
  if s.status.busy then s.setHaz else s.accept d

/-- Completion with code `c` (R206): ERRCODE is the code, ERR is set on an error and otherwise left as it is
(log 15), DONE is set, BUSY and PEND_V fall. -/
def State.finish (s : State) (c : ErrCode) : State :=
  { s with
    pendV := false
    status :=
      { s.status with
        busy := false
        done := true
        err := s.status.err || decide (c ≠ .none)
        errcode := c } }

/-- The end of a command that succeeds: its writes have been applied (R206). -/
def succeed (s : State) : Host.Outcome State Fault Refusal := .next (s.finish .none)

/-- The end of a command that fails, `raise Error(code)`: nothing but STATUS changes (R16, R203, R206). This
is what taking an error is; there is no trap entry and no return from one (R211, R212). -/
def fail (c : ErrCode) (s : State) : Host.Outcome State Fault Refusal := .next (s.finish c)

/-- A command whose checks gave `c`: it fails with `c`, or, if `c` is NONE, succeeds with the writes applied
to the state (R201, R206). -/
def unlessError (c : ErrCode) (s written : State) : Host.Outcome State Fault Refusal :=
  match c with
  | .none => succeed written
  | c => fail c s

/-- A legal DIM write: a new run begins with dimension `d`; every matrix and vector register is zeroed, the
log emptied and EQ cleared, and nothing else changes (R30, R233). -/
def State.newRun (s : State) (d : BitVec 6) : State :=
  { s with
    dim := d
    mats := Vector.replicate 8 Mat.zero
    vecs := Vector.replicate 8 0
    log := []
    status := { s.status with eq := false } }

/-- The reset event (R230): every piece of architectural state takes its reset value, a pending command is
abandoned. The model's own fields, which are the outside world's, stay (log 14). -/
def State.resetEvent (s : State) : State :=
  { State.reset with events := s.events, responses := s.responses, draws := s.draws }

/-- The host is answered (R50). -/
def State.answer (s : State) (r : Reply) : State := { s with responses := r :: s.responses }

/-- The next event of the total order has been taken; `es` are the others. -/
def State.setEvents (s : State) (es : List Event) : State := { s with events := es }

/-- The command word `w` presented to the idle Engine (R205) with the Engine's turn next (R63): what a program's
load comes to on a machine that fetches nothing (R23; log 2). -/
def State.placeCommand (s : State) (w : Word) : State :=
  (s.accept w).setEvents (.engine :: s.events)

end Sys2Proof.Machine
end

