-- ==== Sys2Proof/Machine/Bus.lean ====
section
/-! DEFINITION. The host register interface: the address map (R54), what each read and write does (R27 to
R35, R55 to R58), and the two bus transactions with their responses (R50, R52, R53). -/

namespace Sys2Proof.Machine

/-- What a mapped offset names (R54). -/
inductive Target where
  | id
  | param
  | ctrl
  | status
  | cmd
  | dim
  | iter
  | policy
  | loglen
  | matrixRow (r : RegNo) (i : Fin 32)
  | vector (r : RegNo)
  | logEntry (i : Fin 1024)
  deriving DecidableEq, Repr

/-- The control and status registers of the map, by the word they stand at (R54). -/
def csrTarget (word : Nat) : Option Target :=
  match word with
  | 0 => some .id
  | 1 => some .param
  | 2 => some .ctrl
  | 3 => some .status
  | 4 => some .cmd
  | 5 => some .dim
  | 6 => some .iter
  | 7 => some .policy
  | 8 => some .loglen
  | _ => none

/-- The address map (R54) on a word-aligned offset; `none` is an unmapped offset. -/
def target (a : Addr) : Option Target :=
  if h : 0x1000 ≤ a.toNat ∧ a.toNat < 0x1400 then
    some (.matrixRow ⟨(a.toNat - 0x1000) / 0x80, by omega⟩ ⟨(a.toNat - 0x1000) % 0x80 / 4, by omega⟩)
  else if h : 0x2000 ≤ a.toNat ∧ a.toNat < 0x2020 then
    some (.vector ⟨(a.toNat - 0x2000) / 4, by omega⟩)
  else if h : 0x3000 ≤ a.toNat ∧ a.toNat < 0x4000 then
    some (.logEntry ⟨(a.toNat - 0x3000) / 4, by omega⟩)
  else csrTarget (a.toNat / 4)

/-- The offset of a target (R54). -/
def Target.address : Target → Addr
  | .id => 0x0000
  | .param => 0x0004
  | .ctrl => 0x0008
  | .status => 0x000C
  | .cmd => 0x0010
  | .dim => 0x0014
  | .iter => 0x0018
  | .policy => 0x001C
  | .loglen => 0x0020
  | .matrixRow r i => BitVec.ofNat 16 (0x1000 + 0x80 * r.val + 4 * i.val)
  | .vector r => BitVec.ofNat 16 (0x2000 + 4 * r.val)
  | .logEntry i => BitVec.ofNat 16 (0x3000 + 4 * i.val)

/-- A read of a data window, blocked while BUSY: it returns 0 and sets HAZ (R55 to R57). -/
def windowRead (s : State) (data : Word) : Word × State :=
  if s.status.busy then (0, s.setHaz) else (data, s)

/-- A write of a data window or of DIM, ITER, POLICY, blocked while BUSY: it is ignored and sets HAZ
(R30 to R32, R55, R56). -/
def guardedWrite (s written : State) : State := if s.status.busy then s.setHaz else written

/-- Row i of M[r] as the matrix window shows it (R55). -/
def matrixWindow (s : State) (r : RegNo) (i : Fin 32) : Word :=
  if i.val < s.N then (s.M r).row i.val else 0

/-- LOG[i] as the log window shows it (R57). -/
def logWindow (s : State) (i : Fin 1024) : Word :=
  match s.log[i.val]? with
  | some e => e.toWord
  | none => 0

/-- A target in one of the three data windows, whose accesses BUSY blocks (R55 to R57). -/
def Target.isWindow : Target → Bool
  | .matrixRow _ _ => true
  | .vector _ => true
  | .logEntry _ => true
  | _ => false

/-- The data a read of a mapped offset returns while the Engine is idle (R27 to R35, R53, R55 to R57). -/
def peek (s : State) : Target → Word
  | .id => Config.idWord
  | .param => Config.paramWord
  | .ctrl => s.ctrl.toWord
  | .status => s.status.toWord
  | .cmd => 0
  | .dim => s.dim.setWidth 32
  | .iter => s.iter.setWidth 32
  | .policy => s.policy.toWord
  | .loglen => BitVec.ofNat 32 s.loglen
  | .matrixRow r i => matrixWindow s r i
  | .vector r => s.V r
  | .logEntry i => logWindow s i

/-- A read of a mapped offset: the data, and the state after it; only the windows are blocked while BUSY
(R55 to R58). -/
def readTarget (s : State) (t : Target) : Word × State :=
  if t.isWindow then windowRead s (peek s t) else (peek s t, s)

/-- The byte at an offset, as an idle read of its word shows it: byte lane `a mod 4` (R60); an unmapped
offset shows 0 (R53). -/
def peekByte (s : State) (a : Addr) : Byte :=
  match target a with
  | some t => byteLane (peek s t) (a.toNat % 4)
  | none => 0

/-- A DIM write while idle: a legal value begins a new run, any other is ignored (R30). -/
def writeDim (s : State) (d : Word) : State :=
  if 1 ≤ d.toNat ∧ d.toNat ≤ 32 then s.newRun (d.setWidth 6) else s

/-- A matrix window write while idle: rows past DIM are ignored, columns past DIM masked (R55). -/
def writeMatrixRow (s : State) (r : RegNo) (i : Fin 32) (d : Word) : State :=
  if i.val < s.N then s.setM r ((s.M r).setRow i (d &&& colmask s.N)) else s

/-- A write of a mapped offset (R27 to R35, R53, R55 to R57, R205). -/
def writeTarget (s : State) (d : Word) : Target → State
  | .id => s
  | .param => s
  | .ctrl => { s with ctrl := Ctrl.ofWord d }
  | .status => { s with status := s.status.clearedBy d }
  | .cmd => s.presentCommand d
  | .dim => guardedWrite s (writeDim s d)
  | .iter => guardedWrite s { s with iter := d.setWidth 16 }
  | .policy => guardedWrite s { s with policy := s.policy.written d }
  | .loglen => s
  | .matrixRow r i => guardedWrite s (writeMatrixRow s r i d)
  | .vector r => guardedWrite s (s.setV r (d &&& colmask s.N))
  | .logEntry _ => s

/-- Where a transaction goes: nowhere unless it is 32 bits wide, word-aligned and mapped (R52 to R54). -/
def route (a : Addr) (size : AccessSize) : Option Target :=
  match size with
  | .word => if a.toNat % 4 = 0 then target a else none
  | _ => none

/-- `MemRead(a, size)` (R50, R52, R53). -/
def memRead (s : State) (a : Addr) (size : AccessSize) : Reply × State :=
  match route a size with
  | some t => (.read .okay (readTarget s t).1, (readTarget s t).2)
  | none => (.read .error 0, s)

/-- `MemWrite(a, size, d)` (R50, R52, R53). -/
def memWrite (s : State) (a : Addr) (size : AccessSize) (d : Word) : Reply × State :=
  match route a size with
  | some t => (.write .okay, writeTarget s d t)
  | none => (.write .error, s)

/-- A host transaction, one atomic event (R59); its answer goes to the host. -/
def transact (s : State) : Transaction → State
  | .read a size => (memRead s a size).2.answer (memRead s a size).1
  | .write a size d => (memWrite s a size d).2.answer (memWrite s a size d).1

end Sys2Proof.Machine
end

