-- ==== Sys2Proof/Syntax.lean ====
section
/-! DEFINITION. The command set of GF2ME as syntax: one constructor per row of spec/opcode_table.json
(R83, R84). Register fields are register numbers, all legal (R82); the indices m and n are naturals, whose
range of 5 bits WellFormed checks (R81, R89). -/

namespace Sys2Proof

/-- A command. The operand order is the assembler's (R89). -/
inductive Instr where
  /-- 0x0 NOP (R100). -/
  | nop
  /-- 0x1 IDENT Md (R101). -/
  | ident (rd : RegNo)
  /-- 0x2 MOV Md, Ma (R102). -/
  | mov (rd ra : RegNo)
  /-- 0x3 MUL Md, Ma, Mb (R103). -/
  | mul (rd ra rb : RegNo)
  /-- 0x4 MVMUL Vd, Ma, Vb (R104). -/
  | mvmul (rd ra rb : RegNo)
  /-- 0x5 CMPEQ Ma, Mb (R105). -/
  | cmpeq (ra rb : RegNo)
  /-- 0x6 SWAPGEN Md, m, n (R131). -/
  | swapgen (rd : RegNo) (m n : Nat)
  /-- 0x7 ADDGEN Md, m, n (R132). -/
  | addgen (rd : RegNo) (m n : Nat)
  /-- 0x8 with k = 0, APPLY.ADD Md, m, n (R152). -/
  | applyAdd (rd : RegNo) (m n : Nat)
  /-- 0x8 with k = 1, APPLY.SWAP Md, m, n (R152). -/
  | applySwap (rd : RegNo) (m n : Nat)
  /-- 0x9 COMPOSE Md (R153). -/
  | compose (rd : RegNo)
  /-- 0xA LOGCLR (R160). -/
  | logclr
  /-- 0xB KEYDERIVE Md (R180). -/
  | keyderive (rd : RegNo)
  /-- 0xC VERIFY Md, Mk, Ms, Mo (R185). -/
  | verify (rd ra rb rc : RegNo)
  /-- 0xD, reserved; the other 28 bits are anything (R87). -/
  | reservedD (payload : BitVec 28)
  /-- 0xE, reserved; the other 28 bits are anything (R87). -/
  | reservedE (payload : BitVec 28)
  /-- 0xF, reserved; the other 28 bits are anything (R87). -/
  | reservedF (payload : BitVec 28)
  deriving DecidableEq, Repr

end Sys2Proof
end

