-- ==== Sys2Proof/WellFormed.lean ====
section
/-! DEFINITION. Which commands can be encoded: an index must fit its 5-bit field (R81, R82). "An operand out
of its field's range, such as M8 or an index of 32 or more, is an assembly error" (R89); a register number out
of range cannot be written at all (RegNo). -/

namespace Sys2Proof

/-- The two indices of a command fit their 5-bit fields (R81, R82). -/
def indicesFit (m n : Nat) : Bool := decide (m < 32) && decide (n < 32)

/-- The command has an encoding (R81, R83, R89). -/
def Instr.wellFormed : Instr → Bool
  | .nop => true
  | .ident _ => true
  | .mov _ _ => true
  | .mul _ _ _ => true
  | .mvmul _ _ _ => true
  | .cmpeq _ _ => true
  | .swapgen _ m n => indicesFit m n
  | .addgen _ m n => indicesFit m n
  | .applyAdd _ m n => indicesFit m n
  | .applySwap _ m n => indicesFit m n
  | .compose _ => true
  | .logclr => true
  | .keyderive _ => true
  | .verify _ _ _ _ => true
  | .reservedD _ => true
  | .reservedE _ => true
  | .reservedF _ => true

/-- The command has an encoding, as a proposition. -/
abbrev Instr.WellFormed (i : Instr) : Prop := i.wellFormed = true

end Sys2Proof
end

