-- ==== Sys2Proof/Decode.lean ====
section
/-! DEFINITION. The decoder and the encoder of the command word (R81 to R87), each written from the field
tables of the spec. The decoder is total on all 2^32 words (R86): a word is a command, one of the reserved
opcodes (commands of their own, R87), or it is rejected by the name reservedField (R83). -/

namespace Sys2Proof

/-- `w[lo+width-1 : lo]` read as an unsigned integer (R14). -/
def Word.field (w : Word) (lo width : Nat) : Nat := w.toNat / 2 ^ lo % 2 ^ width

/-- A register number from a 3-bit field; the field can hold nothing else (R82). -/
def Word.regField (w : Word) (lo : Nat) : RegNo :=
  ⟨w.field lo 3, Nat.mod_lt _ (by decide)⟩

/-- The opcode, `w[31:28]` (R82). -/
def Word.op (w : Word) : Nat := w.field 28 4

/-- The register field rd, `w[27:25]` (R82). -/
def Word.rd (w : Word) : RegNo := w.regField 25

/-- The register field ra, `w[24:22]` (R82). -/
def Word.ra (w : Word) : RegNo := w.regField 22

/-- The register field rb, `w[21:19]` (R82). -/
def Word.rb (w : Word) : RegNo := w.regField 19

/-- The register field rc, `w[18:16]` (R82). -/
def Word.rc (w : Word) : RegNo := w.regField 16

/-- The reserved field, `w[15:11]`, which must be 0 in every command (R81, R83). -/
def Word.rsv (w : Word) : Nat := w.field 11 5

/-- The kind bit, `w[10]`, 1 = Swap (R81). -/
def Word.k (w : Word) : Nat := w.field 10 1

/-- The row index m, `w[9:5]` (R82). -/
def Word.m (w : Word) : Nat := w.field 5 5

/-- The row index n, `w[4:0]` (R82). -/
def Word.n (w : Word) : Nat := w.field 0 5

/-- Why a word is no command. -/
inductive Reject where
  /-- The opcode is 0x0 to 0xC, and rsv or a field the opcode does not use is nonzero (R83, R200 code 2).
  Raised by `decode`; safe: the Engine completes such a word with the spec's own error. -/
  | reservedField
  deriving DecidableEq, Repr

/-- The command `i`, provided the fields R83 marks 0 for its opcode are 0. -/
def whenZero (fieldsZero : Bool) (i : Instr) : Except Reject Instr :=
  if fieldsZero then .ok i else .error .reservedField

/-- The decoder of R84 with the field table of R83. -/
def decode (w : Word) : Except Reject Instr :=
  let noRd := w.rd.val == 0
  let noRa := w.ra.val == 0
  let noRb := w.rb.val == 0
  let noRc := w.rc.val == 0
  let noRsv := w.rsv == 0
  let noK := w.k == 0
  let noMN := w.m == 0 && w.n == 0
  let low := noRc && noRsv && noK && noMN
  match w.op with
  | 0x0 => whenZero (noRd && noRa && noRb && low) .nop
  | 0x1 => whenZero (noRa && noRb && low) (.ident w.rd)
  | 0x2 => whenZero (noRb && low) (.mov w.rd w.ra)
  | 0x3 => whenZero low (.mul w.rd w.ra w.rb)
  | 0x4 => whenZero low (.mvmul w.rd w.ra w.rb)
  | 0x5 => whenZero (noRd && low) (.cmpeq w.ra w.rb)
  | 0x6 => whenZero (noRa && noRb && noRc && noRsv && noK) (.swapgen w.rd w.m w.n)
  | 0x7 => whenZero (noRa && noRb && noRc && noRsv && noK) (.addgen w.rd w.m w.n)
  | 0x8 => whenZero (noRa && noRb && noRc && noRsv)
      (if noK then .applyAdd w.rd w.m w.n else .applySwap w.rd w.m w.n)
  | 0x9 => whenZero (noRa && noRb && low) (.compose w.rd)
  | 0xA => whenZero (noRd && noRa && noRb && low) .logclr
  | 0xB => whenZero (noRa && noRb && low) (.keyderive w.rd)
  | 0xC => whenZero (noRsv && noK && noMN) (.verify w.rd w.ra w.rb w.rc)
  | 0xD => .ok (.reservedD (w.setWidth 28))
  | 0xE => .ok (.reservedE (w.setWidth 28))
  | _ => .ok (.reservedF (w.setWidth 28))

/-- The word of R85. The fields do not overlap, so the `|` of R85 is a sum. -/
def encodeFields (op rd ra rb rc k m n : Nat) : Word :=
  BitVec.ofNat 32 (op * 2 ^ 28 + rd * 2 ^ 25 + ra * 2 ^ 22 + rb * 2 ^ 19 + rc * 2 ^ 16 + k * 2 ^ 10 + m * 2 ^ 5 + n)

/-- A reserved opcode with the 28 bits that are anything (R87). -/
def encodeReserved (op : Nat) (payload : BitVec 28) : Word :=
  BitVec.ofNat 32 (op * 2 ^ 28 + payload.toNat)

/-- The word of a command, with every unused field 0 (R83, R85). -/
def encode : Instr → Word
  | .nop => encodeFields 0x0 0 0 0 0 0 0 0
  | .ident rd => encodeFields 0x1 rd 0 0 0 0 0 0
  | .mov rd ra => encodeFields 0x2 rd ra 0 0 0 0 0
  | .mul rd ra rb => encodeFields 0x3 rd ra rb 0 0 0 0
  | .mvmul rd ra rb => encodeFields 0x4 rd ra rb 0 0 0 0
  | .cmpeq ra rb => encodeFields 0x5 0 ra rb 0 0 0 0
  | .swapgen rd m n => encodeFields 0x6 rd 0 0 0 0 m n
  | .addgen rd m n => encodeFields 0x7 rd 0 0 0 0 m n
  | .applyAdd rd m n => encodeFields 0x8 rd 0 0 0 0 m n
  | .applySwap rd m n => encodeFields 0x8 rd 0 0 0 1 m n
  | .compose rd => encodeFields 0x9 rd 0 0 0 0 0 0
  | .logclr => encodeFields 0xA 0 0 0 0 0 0 0
  | .keyderive rd => encodeFields 0xB rd 0 0 0 0 0 0
  | .verify rd ra rb rc => encodeFields 0xC rd ra rb rc 0 0 0
  | .reservedD p => encodeReserved 0xD p
  | .reservedE p => encodeReserved 0xE p
  | .reservedF p => encodeReserved 0xF p

/-- The opcode of a command (R84). -/
def Instr.opcode : Instr → Nat
  | .nop => 0x0
  | .ident _ => 0x1
  | .mov _ _ => 0x2
  | .mul _ _ _ => 0x3
  | .mvmul _ _ _ => 0x4
  | .cmpeq _ _ => 0x5
  | .swapgen _ _ _ => 0x6
  | .addgen _ _ _ => 0x7
  | .applyAdd _ _ _ => 0x8
  | .applySwap _ _ _ => 0x8
  | .compose _ => 0x9
  | .logclr => 0xA
  | .keyderive _ => 0xB
  | .verify _ _ _ _ => 0xC
  | .reservedD _ => 0xD
  | .reservedE _ => 0xE
  | .reservedF _ => 0xF

/-- The decoder on a word given as a number of `nbits` bits, the bits above them 0. Every command is one
32-bit word (R80), written to CMD as one word, so bit 0 of the number is bit 0 of the word. -/
def decodeTableWord (nbits w : Nat) : Option Instr :=
  match decode (BitVec.ofNat 32 (w % 2 ^ nbits)) with
  | .ok i => some i
  | .error _ => none

end Sys2Proof
end

