-- ==== Sys2Proof/Machine/Draw.lean ====
section
/-! DEFINITION. The draws of the composer: DrawPair (R10, R140), KindSource and ChooseKind (R11, R154). The
values are inputs of the Engine's step (R38): those supplied from outside, then free values of Config (log 3). -/

namespace Sys2Proof.Machine

/-- Whether a pair meets the constraint of R10. -/
def pairValid (N : Nat) (p : Nat × Nat) : Bool := decide (p.1 < N) && decide (p.2 < N) && decide (p.1 ≠ p.2)

/-- A pair of the entropy source under the constraint of R10: a valid pair is itself, so every valid pair can
be drawn; any other is brought into range by the construction of R141 (log 3). -/
def constrainPair (N : Nat) (p : Nat × Nat) : Nat × Nat :=
  if pairValid N p then p else (p.1 % N, (p.1 % N + 1 + p.2 % (N - 1)) % N)

/-- `DrawPair(N)`, called only for N of 2 or more (R140). -/
def drawPair (N : Nat) (d : Draws) : (Nat × Nat) × Draws :=
  match d.pairInputs with
  | p :: ps => (constrainPair N p, { d with pairInputs := ps })
  | [] => (constrainPair N (Config.indexSource d.pairCount), { d with pairCount := d.pairCount + 1 })

/-- The kind a bit of KindSource names: 1 is Swap (R11, R26). -/
def kindOfBit (b : Bool) : OpKind := if b then .swap else .addRow

/-- `draw KindSource()` (R11). -/
def drawKind (d : Draws) : OpKind × Draws :=
  match d.kindInputs with
  | b :: bs => (kindOfBit b, { d with kindInputs := bs })
  | [] => (kindOfBit (Config.kindSource d.kindCount), { d with kindCount := d.kindCount + 1 })

/-- `ChooseKind()` (R154): KindSource is consulted in MIXED mode only. -/
def chooseKind (mode : Mode) (d : Draws) : OpKind × Draws :=
  match mode with
  | .add => (.addRow, d)
  | .swap => (.swap, d)
  | .mixed => drawKind d

end Sys2Proof.Machine
end

