-- ==== Sys2Proof/Machine/Composer.lean ====
section
/-! DEFINITION. The transform composer (42_composer.md): APPLY.ADD, APPLY.SWAP, COMPOSE and LOGCLR. -/

namespace Sys2Proof.Machine

/-- The checks of APPLY, in the order of R201: the indices, then LOG_FULL (R152). -/
def applyCheck (s : State) (m n : Nat) : ErrCode :=
  match indexCheck s.N m n with
  | .none => if s.loglen = Config.logDepth then .logFull else .none
  | c => c

/-- The writes of APPLY: one composer step on M[rd], and its entry logged (R150, R151, R152). -/
def applyEntry (s : State) (rd : RegNo) (e : LogEntry) : State :=
  (s.setM rd (composerStep s.N (s.M rd) e)).logAppend [e]

/-- APPLY.ADD Md, m, n (R152 with k = 0). -/
def execApplyAdd (rd : RegNo) (m n : Nat) (s : State) : Host.Outcome State Fault Refusal :=
  unlessError (applyCheck s m n) s (applyEntry s rd (mkEntry .addRow m n))

/-- APPLY.SWAP Md, m, n (R152 with k = 1). -/
def execApplySwap (rd : RegNo) (m n : Nat) (s : State) : Host.Outcome State Fault Refusal :=
  unlessError (applyCheck s m n) s (applyEntry s rd (mkEntry .swap m n))

/-- What the loop of COMPOSE leaves: the matrix, the entries in the order applied, the draws taken. -/
structure Composed where
  mat : Mat
  entries : List LogEntry
  draws : Draws
  deriving DecidableEq, Repr

/-- The loop of COMPOSE for `count` more operations (R153): draw a pair, choose a kind, apply, record. -/
def composeLoop (N : Nat) (mode : Mode) : Nat → Mat → Draws → Composed
  | 0, X, d => { mat := X, entries := [], draws := d }
  | count + 1, X, d =>
    let pair := drawPair N d
    let kind := chooseKind mode pair.2
    let e := mkEntry kind.1 pair.1.1 pair.1.2
    let rest := composeLoop N mode count (composerStep N X e) kind.2
    { rest with entries := e :: rest.entries }

/-- The checks of COMPOSE, before any draw, DEGENERATE before LOG_FULL (R153, R155). -/
def composeCheck (s : State) : ErrCode :=
  if s.N < 2 ∧ 0 < s.iter.toNat then .degenerate
  else if Config.logDepth < s.loglen + s.iter.toNat then .logFull
  else .none

/-- The loop of COMPOSE on the state: K = ITER.K operations on M[rd] (R153). -/
def composeRun (s : State) (rd : RegNo) : Composed :=
  composeLoop s.N s.policy.mode s.iter.toNat (s.M rd) s.draws

/-- The writes of COMPOSE, all at once (R153). -/
def composeWrites (s : State) (rd : RegNo) : State :=
  ((s.setM rd (composeRun s rd).mat).logAppend (composeRun s rd).entries).setDraws (composeRun s rd).draws

/-- COMPOSE Md (R153). -/
def execCompose (rd : RegNo) (s : State) : Host.Outcome State Fault Refusal :=
  unlessError (composeCheck s) s (composeWrites s rd)

/-- LOGCLR (R160). -/
def execLogclr (s : State) : Host.Outcome State Fault Refusal := succeed s.logClear

end Sys2Proof.Machine
end

