-- ==== Sys2Proof/Machine/Generators.lean ====
section
/-! DEFINITION. The elementary operation generators (41_generators.md): SWAPGEN and ADDGEN. -/

namespace Sys2Proof.Machine

/-- SWAPGEN Md, m, n (R131). -/
def execSwapgen (rd : RegNo) (m n : Nat) (s : State) : Host.Outcome State Fault Refusal :=
  unlessError (indexCheck s.N m n) s (s.setM rd (swapMat s.N m n))

/-- ADDGEN Md, m, n (R132). -/
def execAddgen (rd : RegNo) (m n : Nat) (s : State) : Host.Outcome State Fault Refusal :=
  unlessError (indexCheck s.N m n) s (s.setM rd (addMat s.N m n))

end Sys2Proof.Machine
end

