-- ==== Sys2Proof/Machine/KeyVerify.lean ====
section
/-! DEFINITION. Key derivation and the verifier (43_key_verify.md): KEYDERIVE and VERIFY. -/

namespace Sys2Proof.Machine

/-- KEYDERIVE Md (R180): the key of the log, by right multiplication in recorded order (90_conflicts.md C1). -/
def execKeyderive (rd : RegNo) (s : State) : Host.Outcome State Fault Refusal :=
  succeed (s.setM rd (keyOf s.N s.log))

/-- `Key · Scrambled` of VERIFY, from the operands as they were before the command (R185). -/
def recovered (s : State) (ra rb : RegNo) : Mat := matMul (s.M ra) (s.M rb) s.N

/-- VERIFY Md, Mk, Ms, Mo (R185). -/
def execVerify (rd ra rb rc : RegNo) (s : State) : Host.Outcome State Fault Refusal :=
  succeed ((s.setM rd (recovered s ra rb)).setEq (matEq (recovered s ra rb) (s.M rc) s.N))

end Sys2Proof.Machine
end

