-- ==== Sys2Proof/Machine/MatrixUnit.lean ====
section
/-! DEFINITION. The matrix family (40_matrix.md): NOP, IDENT, MOV, MUL, MVMUL, CMPEQ. Every operand is read
from the state before the command, and the destination is written at its completion (R16, R18). -/

namespace Sys2Proof.Machine

/-- NOP (R100). -/
def execNop (s : State) : Host.Outcome State Fault Refusal := succeed s

/-- IDENT Md (R101). -/
def execIdent (rd : RegNo) (s : State) : Host.Outcome State Fault Refusal :=
  succeed (s.setM rd (ident s.N))

/-- MOV Md, Ma (R102). -/
def execMov (rd ra : RegNo) (s : State) : Host.Outcome State Fault Refusal :=
  succeed (s.setM rd (s.M ra))

/-- MUL Md, Ma, Mb (R103). -/
def execMul (rd ra rb : RegNo) (s : State) : Host.Outcome State Fault Refusal :=
  succeed (s.setM rd (matMul (s.M ra) (s.M rb) s.N))

/-- MVMUL Vd, Ma, Vb (R104). -/
def execMvmul (rd ra rb : RegNo) (s : State) : Host.Outcome State Fault Refusal :=
  succeed (s.setV rd (matVec (s.M ra) (s.V rb) s.N))

/-- CMPEQ Ma, Mb (R105). -/
def execCmpeq (ra rb : RegNo) (s : State) : Host.Outcome State Fault Refusal :=
  succeed (s.setEq (matEq (s.M ra) (s.M rb) s.N))

end Sys2Proof.Machine
end

