-- ==== Sys2Proof/Machine/Reserved.lean ====
section
/-! DEFINITION. The reserved opcodes (R87): an accepted word with one of them ends with ILLEGAL_OPCODE,
whatever its other bits hold, and changes no state but STATUS. -/

namespace Sys2Proof.Machine

/-- Opcode 0xD (R87). -/
def execReservedD (_payload : BitVec 28) (s : State) : Host.Outcome State Fault Refusal :=
  fail .illegalOpcode s

/-- Opcode 0xE (R87). -/
def execReservedE (_payload : BitVec 28) (s : State) : Host.Outcome State Fault Refusal :=
  fail .illegalOpcode s

/-- Opcode 0xF (R87). -/
def execReservedF (_payload : BitVec 28) (s : State) : Host.Outcome State Fault Refusal :=
  fail .illegalOpcode s

end Sys2Proof.Machine
end

