-- ==== Sys2Proof/Machine/Dispatch.lean ====
section
/-! DEFINITION. One arm per command: Execute and completion (R206). -/

namespace Sys2Proof.Machine

def exec (i : Instr) (s : State) : Host.Outcome State Fault Refusal :=
  match i with
  | .nop => Sys2Proof.Machine.execNop s
  | .ident rd => Sys2Proof.Machine.execIdent rd s
  | .mov rd ra => Sys2Proof.Machine.execMov rd ra s
  | .mul rd ra rb => Sys2Proof.Machine.execMul rd ra rb s
  | .mvmul rd ra rb => Sys2Proof.Machine.execMvmul rd ra rb s
  | .cmpeq ra rb => Sys2Proof.Machine.execCmpeq ra rb s
  | .swapgen rd m n => Sys2Proof.Machine.execSwapgen rd m n s
  | .addgen rd m n => Sys2Proof.Machine.execAddgen rd m n s
  | .applyAdd rd m n => Sys2Proof.Machine.execApplyAdd rd m n s
  | .applySwap rd m n => Sys2Proof.Machine.execApplySwap rd m n s
  | .compose rd => Sys2Proof.Machine.execCompose rd s
  | .logclr => Sys2Proof.Machine.execLogclr s
  | .keyderive rd => Sys2Proof.Machine.execKeyderive rd s
  | .verify rd ra rb rc => Sys2Proof.Machine.execVerify rd ra rb rc s
  | .reservedD payload => Sys2Proof.Machine.execReservedD payload s
  | .reservedE payload => Sys2Proof.Machine.execReservedE payload s
  | .reservedF payload => Sys2Proof.Machine.execReservedF payload s

end Sys2Proof.Machine
end

