-- ==== Sys2Proof/Machine/Engine.lean ====
section
/-! DEFINITION. StaticCheck (R202), the Engine step (R206), and the events of the total order (R63). -/

namespace Sys2Proof.Machine

/-- `ZeroMask(op)` (R202): the bits of the fields R83 marks 0 for the opcode, and of rsv. For APPLY bit 10
is an operand and is not in it (90_conflicts.md C13). -/
def zeroMask (op : Nat) : Word :=
  match op with
  | 0x0 => 0x0FFFFFFF
  | 0x1 => 0x01FFFFFF
  | 0x2 => 0x003FFFFF
  | 0x3 => 0x0007FFFF
  | 0x4 => 0x0007FFFF
  | 0x5 => 0x0E07FFFF
  | 0x6 => 0x01FFFC00
  | 0x7 => 0x01FFFC00
  | 0x8 => 0x01FFF800
  | 0x9 => 0x01FFFFFF
  | 0xA => 0x0FFFFFFF
  | 0xB => 0x01FFFFFF
  | 0xC => 0x0000FFFF
  | _ => 0

/-- `StaticCheck(w)` (R202). The Engine reaches the same outcome through `decode`, which is written from the
field table R83; that the two agree is a statement of the model. -/
def staticCheck (w : Word) : ErrCode :=
  if 0xD ≤ w.op then .illegalOpcode
  else if w &&& zeroMask w.op ≠ 0 then .reservedField
  else .none

/-- A word that is no command: it completes with RESERVED_FIELD and has no other effect (R83, R84, R206). -/
def rejectWord (r : Reject) (s : State) : Host.Outcome State Fault Refusal :=
  match r with
  | .reservedField => fail .reservedField s

/-- `EngineStep()` (R206): PEND is decoded and executed as one atomic step. -/
def engineStep (s : State) : Host.Outcome State Fault Refusal :=
  match decode s.pend with
  | .ok i => exec i s
  | .error r => rejectWord r s

/-- The Engine's turn: its step is enabled exactly when PEND_V = 1 (R63, R206); without one the turn is no
event of the order, and nothing changes (R219; log 6). -/
def engineTurn (s : State) : Host.Outcome State Fault Refusal :=
  if s.pendV then engineStep s else .next s

/-- The next event of the total order (R63). When none is to come from outside, an enabled Engine step occurs
(weak fairness), and without one the block is idle (R219; log 1, log 6). -/
def takeEvent (s : State) : Host.Outcome State Fault Refusal :=
  match s.events with
  | [] => engineTurn s
  | .engine :: es => engineTurn (s.setEvents es)
  | .bus t :: es => .next (transact (s.setEvents es) t)
  | .reset :: es => .next (s.setEvents es).resetEvent

end Sys2Proof.Machine
end

