-- ==== Sys2Proof/Machine/Assembler.lean ====
section
/-! DEFINITION. The assembler syntax of commands (R89), as a total function from a line of text to a command.
Notation of the host's, not semantics (92_eei_decisions.md D34). What R89 leaves open (blanks, comments) is
the model's choice: log 20. -/

namespace Sys2Proof.Machine

/-- A blank. -/
def Asm.isBlank (c : Char) : Bool := c == ' ' || c == '\t'

/-- The text without the blanks around it. -/
def Asm.trim (cs : List Char) : List Char :=
  ((cs.dropWhile Asm.isBlank).reverse.dropWhile Asm.isBlank).reverse

/-- The text cut at each comma. -/
def Asm.splitCommas : List Char → List (List Char)
  | [] => [[]]
  | c :: cs =>
    match Asm.splitCommas cs with
    | [] => [[c]]
    | part :: parts => if c == ',' then [] :: part :: parts else (c :: part) :: parts

/-- The value of a digit in a base of at most 16. -/
def Asm.digit (base : Nat) (c : Char) : Option Nat :=
  let v :=
    if '0' ≤ c ∧ c ≤ '9' then c.toNat - '0'.toNat
    else if 'a' ≤ c ∧ c ≤ 'f' then c.toNat - 'a'.toNat + 10
    else if 'A' ≤ c ∧ c ≤ 'F' then c.toNat - 'A'.toNat + 10
    else 16
  if v < base then some v else none

/-- Digits in a base, read after the value of those before them. -/
def Asm.digits (base : Nat) : Nat → List Char → Option Nat
  | acc, [] => some acc
  | acc, c :: cs =>
    match Asm.digit base c with
    | some v => Asm.digits base (acc * base + v) cs
    | none => none

/-- An unsigned decimal or `0x` hexadecimal integer (R89). -/
def Asm.number : List Char → Option Nat
  | [] => none
  | ['0', 'x'] => none
  | '0' :: 'x' :: cs => Asm.digits 16 0 cs
  | cs => Asm.digits 10 0 cs

/-- An index: an integer below 32; any other is an assembly error (R89). -/
def Asm.index (cs : List Char) : Option Nat :=
  match Asm.number cs with
  | some v => if v < 32 then some v else none
  | none => none

/-- A register of the file named by `letter`, numbered 0 to 7; any other is an assembly error (R89). -/
def Asm.reg (letter : Char) (cs : List Char) : Option RegNo :=
  match cs with
  | [f, d] =>
    if f == letter then
      match Asm.digit 10 d with
      | some v => if h : v < 8 then some ⟨v, h⟩ else none
      | none => none
    else none
  | _ => none

/-- A matrix register, M0 to M7. -/
def Asm.mreg (cs : List Char) : Option RegNo := Asm.reg 'M' cs

/-- A vector register, V0 to V7. -/
def Asm.vreg (cs : List Char) : Option RegNo := Asm.reg 'V' cs

/-- A command of one matrix register. -/
def Asm.form1 (f : RegNo → Instr) (a : List Char) : Option Instr := (Asm.mreg a).map f

/-- A command of two matrix registers. -/
def Asm.form2 (f : RegNo → RegNo → Instr) (a b : List Char) : Option Instr :=
  match Asm.mreg a, Asm.mreg b with
  | some x, some y => some (f x y)
  | _, _ => none

/-- A command of a matrix register and two indices. -/
def Asm.formIndex (f : RegNo → Nat → Nat → Instr) (a m n : List Char) : Option Instr :=
  match Asm.mreg a, Asm.index m, Asm.index n with
  | some x, some i, some j => some (f x i j)
  | _, _, _ => none

/-- MUL Md, Ma, Mb. -/
def Asm.formMul (a b c : List Char) : Option Instr :=
  match Asm.mreg a, Asm.mreg b, Asm.mreg c with
  | some x, some y, some z => some (.mul x y z)
  | _, _, _ => none

/-- MVMUL Vd, Ma, Vb. -/
def Asm.formMvmul (a b c : List Char) : Option Instr :=
  match Asm.vreg a, Asm.mreg b, Asm.vreg c with
  | some x, some y, some z => some (.mvmul x y z)
  | _, _, _ => none

/-- VERIFY Md, Mk, Ms, Mo. -/
def Asm.formVerify (a b c d : List Char) : Option Instr :=
  match Asm.mreg a, Asm.mreg b, Asm.mreg c, Asm.mreg d with
  | some x, some y, some z, some w => some (.verify x y z w)
  | _, _, _, _ => none

/-- A mnemonic in capitals with its operands (R89). -/
def Asm.command (mnemonic : String) (operands : List (List Char)) : Option Instr :=
  match mnemonic, operands with
  | "NOP", [[]] => some .nop
  | "IDENT", [a] => Asm.form1 .ident a
  | "MOV", [a, b] => Asm.form2 .mov a b
  | "MUL", [a, b, c] => Asm.formMul a b c
  | "MVMUL", [a, b, c] => Asm.formMvmul a b c
  | "CMPEQ", [a, b] => Asm.form2 .cmpeq a b
  | "SWAPGEN", [a, m, n] => Asm.formIndex .swapgen a m n
  | "ADDGEN", [a, m, n] => Asm.formIndex .addgen a m n
  | "APPLY.ADD", [a, m, n] => Asm.formIndex .applyAdd a m n
  | "APPLY.SWAP", [a, m, n] => Asm.formIndex .applySwap a m n
  | "COMPOSE", [a] => Asm.form1 .compose a
  | "LOGCLR", [[]] => some .logclr
  | "KEYDERIVE", [a] => Asm.form1 .keyderive a
  | "VERIFY", [a, b, c, d] => Asm.formVerify a b c d
  | _, _ => none

/-- One line of assembler text: a mnemonic in either case, then operands separated by commas; what follows a
`;` is a comment (R89; log 20). -/
def assemble (line : String) : Option Instr :=
  let text := Asm.trim (line.toList.takeWhile fun c => c != ';')
  let mnemonic := text.takeWhile fun c => !Asm.isBlank c
  let rest := text.dropWhile fun c => !Asm.isBlank c
  Asm.command (String.ofList (mnemonic.map Char.toUpper)) ((Asm.splitCommas rest).map Asm.trim)

end Sys2Proof.Machine
end

