-- ==== Sys2Proof/Machine/Run.lean ====
section
/-! DEFINITION. The end of a run of a host program and what is observed of it (R244). -/

namespace Sys2Proof.Machine

/-- Whether an event is a host transaction; the Engine's turns and the resets are not (R63, R230, R244). -/
def Event.isTransaction : Event → Bool
  | .bus _ => true
  | .engine => false
  | .reset => false

/-- The program has issued its last transaction, and PEND_V = 0 (R244). Engine's turns and resets may still be to
come: DEDUCED, safe: log 27. -/
def State.finished (s : State) : Bool := (s.events.all fun e => !e.isTransaction) && !s.pendV

/-- The same as a proposition. -/
abbrev State.Finished (s : State) : Prop := s.finished = true

/-- The end of the run from `s`: the first state at which the program is finished (R244), looked for over at most
`fuel` steps. -/
def endOfRun : Nat → State → Option State
  | 0, s => if s.finished then some s else none
  | fuel + 1, s =>
    if s.finished then some s
    else
      match step s with
      | .next t => endOfRun fuel t
      | .fault _ => none
      | .refused _ => none

/-- What is observed of a run: the architectural state of 10_state.md (R244). PEND is not in it, which no program
can read (R37), nor are the model's own records and draws; ID and PARAM are constants. -/
structure Observation where
  mats : Vector Mat 8
  vecs : Vector Word 8
  log : List LogEntry
  ctrl : Ctrl
  dim : BitVec 6
  iter : BitVec 16
  policy : Policy
  status : Status
  pendV : Bool
  irq : Bool
  deriving DecidableEq, Repr

/-- The observation of a state (R244). -/
def State.observation (s : State) : Observation where
  mats := s.mats
  vecs := s.vecs
  log := s.log
  ctrl := s.ctrl
  dim := s.dim
  iter := s.iter
  policy := s.policy
  status := s.status
  pendV := s.pendV
  irq := s.irq

/-- The observation of a run, at its end (R244). -/
def observeRun (fuel : Nat) (s : State) : Option Observation := (endOfRun fuel s).map State.observation

end Sys2Proof.Machine
end

