-- ==== Sys2Proof/Machine/Script.lean ====
section
/-! DEFINITION. The host script notation (R90) and the pseudo-instructions (R91) as lists of events. -/

namespace Sys2Proof.Machine

/-- `wr <reg>, <value>`: MemWrite at the register's offset (R90). -/
def Script.wr (t : Target) (d : Word) : List Event := [.bus (.write t.address .word d)]

/-- `rd <reg>`: MemRead at the register's offset (R90). -/
def Script.rd (t : Target) : List Event := [.bus (.read t.address .word)]

/-- `cmd <command>`: a CMD write of the command's word (R85, R90). -/
def Script.cmd (i : Instr) : List Event := Script.wr .cmd (encode i)

/-- `wait`: STATUS is read until BUSY = 0 (R90). `polls` reads find the command still running, then the Engine
takes its step, then a read returns BUSY = 0. How many polls fail is Latency's (R12), so it is an argument
(log 21). -/
def Script.wait (polls : Nat) : List Event :=
  (List.replicate polls (Script.rd .status)).flatten ++ [.engine] ++ Script.rd .status

/-- `SCRAMBLE Md` (R91). -/
def Script.scramble (md : RegNo) (polls : Nat) : List Event :=
  Script.cmd .logclr ++ Script.wait polls ++ Script.cmd (.compose md) ++ Script.wait polls

/-- `UNSCRAMBLE Md, Mk, Ms, Mo` (R91). -/
def Script.unscramble (md mk ms mo : RegNo) (polls : Nat) : List Event :=
  Script.cmd (.keyderive mk) ++ Script.wait polls ++ Script.cmd (.verify md mk ms mo) ++ Script.wait polls

end Sys2Proof.Machine
end

