-- ==== Sys2Proof/Safety.lean ====
section
/-! DEFINITION. What counts as a safe state and a safe run, in the terms the statements use: the invariant of
the data state (R24), the log's (R25, R158), the handshake's (R37, R237), frames, completion (R206). -/

namespace Sys2Proof.Machine

/-- Every cell outside the leading N×N region is 0 (R24). -/
def Mat.InRegion (N : Nat) (A : Mat) : Prop := ∀ i j, N ≤ i ∨ N ≤ j → A.cell i j = false

/-- Every element outside the leading N is 0 (R24). -/
def vecInRegion (N : Nat) (v : Word) : Prop := ∀ j, N ≤ j → v.getLsbD j = false

/-- DIM holds a legal value (R30). -/
def State.DimOk (s : State) : Prop := 1 ≤ s.N ∧ s.N ≤ 32

/-- The invariant of the data state (R24). -/
def State.DataOk (s : State) : Prop :=
  (∀ r, (s.M r).InRegion s.N) ∧ ∀ r, vecInRegion s.N (s.V r)

/-- A log entry is valid under a dimension: distinct indices in range (R26, R130). -/
def LogEntry.Valid (N : Nat) (e : LogEntry) : Prop := e.m.toNat < N ∧ e.n.toNat < N ∧ e.m ≠ e.n

/-- The log holds at most LOGDEPTH entries, each valid under the current DIM (R25, R133, R158). -/
def State.LogOk (s : State) : Prop := s.loglen ≤ 1024 ∧ ∀ e ∈ s.log, e.Valid s.N

/-- The handshake: PEND_V = BUSY at all times (R37); while BUSY, DONE, ERR and ERRCODE are as acceptance left
them (R205, R237); ERR is never 1 with ERRCODE 0 (R206). -/
def State.HandshakeOk (s : State) : Prop :=
  s.pendV = s.status.busy ∧
  (s.status.busy = true → s.status.done = false ∧ s.status.err = false ∧ s.status.errcode = .none) ∧
  (s.status.err = true → s.status.errcode ≠ .none)

/-- The invariant of the machine. -/
structure State.Inv (s : State) : Prop where
  dimOk : s.DimOk
  dataOk : s.DataOk
  logOk : s.LogOk
  handshakeOk : s.HandshakeOk

/-- How a command that completes with code `c` leaves the status and the handshake (R206). EQ is not said. -/
structure Completed (c : ErrCode) (s t : State) : Prop where
  busy : t.status.busy = false
  done : t.status.done = true
  errcode : t.status.errcode = c
  errKept : c = .none → t.status.err = s.status.err
  errSet : c ≠ .none → t.status.err = true
  haz : t.status.haz = s.status.haz
  pendV : t.pendV = false

/-- What no command writes: CTRL, DIM, ITER, POLICY, PEND (R22, R58, R66), and the model's own records of the
outside world. -/
structure Untouched (s t : State) : Prop where
  ctrl : t.ctrl = s.ctrl
  dim : t.dim = s.dim
  iter : t.iter = s.iter
  policy : t.policy = s.policy
  pend : t.pend = s.pend
  events : t.events = s.events
  responses : t.responses = s.responses

/-- Every matrix register but `rd` is as before. -/
def MatsKeptExcept (rd : RegNo) (s t : State) : Prop := ∀ r, r ≠ rd → t.M r = s.M r

/-- Everything a command may write but the matrix registers is as before: the vectors, the log, EQ; and no
draw was taken. -/
structure RestKept (s t : State) : Prop where
  vecs : t.vecs = s.vecs
  log : t.log = s.log
  draws : t.draws = s.draws
  eq : t.status.eq = s.status.eq

/-- All data is as before: what an erroring command leaves (R203). -/
structure DataKept (s t : State) : Prop where
  mats : t.mats = s.mats
  rest : RestKept s t

/-- A command that ends with the error `c` and no other effect (R203, R206). -/
structure Failed (c : ErrCode) (s t : State) : Prop where
  completed : Completed c s t
  data : DataKept s t
  untouched : Untouched s t

/-- No BUSY rule has been broken (R239). -/
def State.HazardFree (s : State) : Prop := s.status.haz = false

/-- A cell as the integer 0 or 1 (R15, R17). -/
def Mat.cellNat (A : Mat) (i j : Nat) : Nat := (A.cell i j).toNat

/-- Cell (i, j) of the integer product of the leading N×N cells, reduced mod 2 once at the end (R106, R113). -/
def productMod2 (N : Nat) (A B : Mat) (i j : Nat) : Nat :=
  if i < N ∧ j < N then (∑ k ∈ Finset.range N, A.cellNat i k * B.cellNat k j) % 2 else 0

/-- The leading N×N cells as a matrix over the field of two elements (R17). -/
def Mat.toGF2 (N : Nat) (A : Mat) : Matrix (Fin N) (Fin N) (ZMod 2) :=
  fun i j => if A.cell i j then 1 else 0

/-- The elements of a vector as the integers 0 and 1 (R21). -/
def vecNat (v : Word) (k : Nat) : Nat := (v.getLsbD k).toNat

/-- Two matrices agree on every cell of the leading N×N region (R108). -/
def SameCells (N : Nat) (A B : Mat) : Prop := ∀ i j, i < N → j < N → A.cell i j = B.cell i j

/-- The Engine's turn comes next: no event is to come from outside, or the next event is the turn (R63). -/
def State.EngineNext (s : State) : Prop := s.events = [] ∨ s.events.head? = some .engine

/-- The state with its next event taken. -/
def State.eventTaken (s : State) : State := s.setEvents s.events.tail

/-- The matrix register a command writes (R22). -/
def destM : Instr → Option RegNo
  | .ident rd => some rd
  | .mov rd _ => some rd
  | .mul rd _ _ => some rd
  | .swapgen rd _ _ => some rd
  | .addgen rd _ _ => some rd
  | .applyAdd rd _ _ => some rd
  | .applySwap rd _ _ => some rd
  | .compose rd => some rd
  | .keyderive rd => some rd
  | .verify rd _ _ _ => some rd
  | .nop | .mvmul _ _ _ | .cmpeq _ _ | .logclr | .reservedD _ | .reservedE _ | .reservedF _ => none

/-- The vector register a command writes: MVMUL's only (R21, R22). -/
def destV : Instr → Option RegNo
  | .mvmul rd _ _ => some rd
  | _ => none

/-- The commands that write EQ: CMPEQ and VERIFY (R22, R36). -/
def writesEq : Instr → Bool
  | .cmpeq _ _ => true
  | .verify _ _ _ _ => true
  | _ => false

/-- The commands that append to the log: APPLY and COMPOSE (R22, R25). -/
def appendsLog : Instr → Bool
  | .applyAdd _ _ _ => true
  | .applySwap _ _ _ => true
  | .compose _ => true
  | _ => false

/-- Two states agree on everything some command reads (R22): the registers, the log, DIM, ITER, POLICY.MODE,
and the inputs of the draws. They may differ in SWAPW, CTRL, STATUS, PEND and the records of the host. -/
structure SameInputs (s t : State) : Prop where
  mats : s.mats = t.mats
  vecs : s.vecs = t.vecs
  log : s.log = t.log
  dim : s.dim = t.dim
  iter : s.iter = t.iter
  mode : s.policy.mode = t.policy.mode
  draws : s.draws = t.draws

/-- An offset in the matrix window (R54). -/
def inMatrixWindow (a : Addr) : Prop := 0x1000 ≤ a.toNat ∧ a.toNat < 0x1400

/-- An offset in the vector window (R54). -/
def inVectorWindow (a : Addr) : Prop := 0x2000 ≤ a.toNat ∧ a.toNat < 0x2020

/-- An offset in the log window (R54). -/
def inLogWindow (a : Addr) : Prop := 0x3000 ≤ a.toNat ∧ a.toNat < 0x4000

/-- An offset some row of the address map maps (R54). -/
def isMapped (a : Addr) : Prop :=
  a.toNat < 0x24 ∨ inMatrixWindow a ∨ inVectorWindow a ∨ inLogWindow a

/-- The transactions that break a BUSY rule when made while BUSY (R239). -/
def BreaksBusyRule : Transaction → Prop
  | .read a .word => a.toNat % 4 = 0 ∧ (inMatrixWindow a ∨ inVectorWindow a ∨ inLogWindow a)
  | .write a .word _ =>
    a.toNat % 4 = 0 ∧
      (a.toNat = 0x10 ∨ a.toNat = 0x14 ∨ a.toNat = 0x18 ∨ a.toNat = 0x1C ∨ inMatrixWindow a ∨ inVectorWindow a)
  | _ => False

/-- A transaction that clears HAZ: a write of 1 to its bit of STATUS (R33, R239). -/
def ClearsHaz : Transaction → Prop
  | .write a .word d => a.toNat = 0x0C ∧ d.getLsbD 4 = true
  | _ => False

/-- M[b] holds what the logged operations make of X0: the premise of R182. -/
def Tracks (s : State) (b : RegNo) (X0 : Mat) : Prop := s.M b = applyAll s.N X0 s.log

end Sys2Proof.Machine
end

