-- ==== Sys2Proof/Certificates/Slice0/Obligations.lean ====
section
/-! DEFINITION. The statements for the provers, each from the numbered rules its docstring cites. -/

open Sys2Proof Sys2Proof.Machine

/-! ### Encoding (30_encoding.md) -/

/-- A few words written out from R81 and R85 decode to their commands. -/
def Obligations.SpecWordsDecode : Prop :=
  decode 0x00000000 = .ok .nop ∧
  decode 0x10000000 = .ok (.ident 0) ∧
  decode 0x34080000 = .ok (.mul 2 0 1) ∧
  decode 0x66000014 = .ok (.swapgen 3 0 20) ∧
  decode 0x80000402 = .ok (.applySwap 0 0 2) ∧
  decode 0x80000020 = .ok (.applyAdd 0 1 0) ∧
  decode 0xB4000000 = .ok (.keyderive 2) ∧
  decode 0xC6810000 = .ok (.verify 3 2 0 1) ∧
  decode 0x00000001 = .error .reservedField

/-- Decode and encode agree: a well-formed command is read back from its word, with every operand at every
value its field admits (R81, R83, R85). -/
def Obligations.DecodeOfEncode : Prop :=
  ∀ i : Instr, i.WellFormed → decode (encode i) = .ok i

/-- The other direction: the command a word decodes to is well-formed and has that very word (R80, R86). -/
def Obligations.EncodeOfDecode : Prop :=
  ∀ (w : Word) (i : Instr), decode w = .ok i → i.WellFormed ∧ encode i = w

/-- Each row of the opcode table, by its mask and match, decodes to its command with the operands at their
bits (R81 to R84, opcode_table.json). -/
def Obligations.TableRowsDecode : Prop :=
  ∀ w : Word,
    (w = 0x00000000 → decode w = .ok .nop) ∧
    (w &&& 0xF1FFFFFF = 0x10000000 → decode w = .ok (.ident w.rd)) ∧
    (w &&& 0xF03FFFFF = 0x20000000 → decode w = .ok (.mov w.rd w.ra)) ∧
    (w &&& 0xF007FFFF = 0x30000000 → decode w = .ok (.mul w.rd w.ra w.rb)) ∧
    (w &&& 0xF007FFFF = 0x40000000 → decode w = .ok (.mvmul w.rd w.ra w.rb)) ∧
    (w &&& 0xFE07FFFF = 0x50000000 → decode w = .ok (.cmpeq w.ra w.rb)) ∧
    (w &&& 0xF1FFFC00 = 0x60000000 → decode w = .ok (.swapgen w.rd w.m w.n)) ∧
    (w &&& 0xF1FFFC00 = 0x70000000 → decode w = .ok (.addgen w.rd w.m w.n)) ∧
    (w &&& 0xF1FFFC00 = 0x80000000 → decode w = .ok (.applyAdd w.rd w.m w.n)) ∧
    (w &&& 0xF1FFFC00 = 0x80000400 → decode w = .ok (.applySwap w.rd w.m w.n)) ∧
    (w &&& 0xF1FFFFFF = 0x90000000 → decode w = .ok (.compose w.rd)) ∧
    (w = 0xA0000000 → decode w = .ok .logclr) ∧
    (w &&& 0xF1FFFFFF = 0xB0000000 → decode w = .ok (.keyderive w.rd)) ∧
    (w &&& 0xF000FFFF = 0xC0000000 → decode w = .ok (.verify w.rd w.ra w.rb w.rc)) ∧
    (w &&& 0xF0000000 = 0xD0000000 → decode w = .ok (.reservedD (w.setWidth 28))) ∧
    (w &&& 0xF0000000 = 0xE0000000 → decode w = .ok (.reservedE (w.setWidth 28))) ∧
    (w &&& 0xF0000000 = 0xF0000000 → decode w = .ok (.reservedF (w.setWidth 28)))

/-- Every word is exactly one of: a legal command, a RESERVED_FIELD word, an ILLEGAL_OPCODE word; the decoder,
written from the field table R83, agrees with StaticCheck and its masks (R86, R202). The only legal word with
opcode 0 is 0. -/
def Obligations.EveryWordHasOneOutcome : Prop :=
  ∀ w : Word,
    ((staticCheck w = .none ∧ w.op ≤ 0xC ∧ w &&& zeroMask w.op = 0 ∧
        ∃ i, decode w = .ok i ∧ i.opcode = w.op) ∨
     (staticCheck w = .reservedField ∧ w.op ≤ 0xC ∧ w &&& zeroMask w.op ≠ 0 ∧
        decode w = .error .reservedField) ∨
     (staticCheck w = .illegalOpcode ∧ 0xD ≤ w.op ∧ ∃ i, decode w = .ok i ∧ i.opcode = w.op)) ∧
    (w.op = 0 → ((∃ i, decode w = .ok i) ↔ w = 0))

/-! ### The step (00_scope.md R18, 20_memory.md R63, 60_exceptions.md R206) -/

/-- One step is one event: the Engine's turn runs exactly the command PEND decodes to; a host transaction or a
reset is taken instead when it comes next (R63, R206). That the events to come are data of the state, and that a
turn with no command pending changes nothing, is the model's choice (logs 1 and 6). -/
def Obligations.StepRunsDecodedCommand : Prop :=
  (∀ (s : State) (i : Instr), s.EngineNext → s.pendV = true → decode s.pend = .ok i →
      step s = exec i s.eventTaken) ∧
  (∀ s : State, s.EngineNext → s.pendV = false → step s = .next s.eventTaken) ∧
  (∀ (s : State) (t : Transaction) (es : List Event), s.events = .bus t :: es →
      step s = .next (transact s.eventTaken t)) ∧
  (∀ (s : State) (es : List Event), s.events = .reset :: es → step s = .next s.eventTaken.resetEvent)

/-- A word of a command's opcode with a must-be-zero field nonzero completes with RESERVED_FIELD and has no
other effect (R83, R84, R202). -/
def Obligations.ReservedFieldWordFails : Prop :=
  ∀ s : State, s.EngineNext → s.pendV = true → s.pend.op ≤ 0xC → s.pend &&& zeroMask s.pend.op ≠ 0 →
    ∃ t, step s = .next t ∧ Failed .reservedField s.eventTaken t

/-- A word of opcode 0xD, 0xE or 0xF completes with ILLEGAL_OPCODE, whatever its other bits hold, and has no
other effect (R87). -/
def Obligations.ReservedOpcodeFails : Prop :=
  (∀ (p : BitVec 28) (s : State),
    (∃ t, exec (.reservedD p) s = .next t ∧ Failed .illegalOpcode s t) ∧
    (∃ t, exec (.reservedE p) s = .next t ∧ Failed .illegalOpcode s t) ∧
    (∃ t, exec (.reservedF p) s = .next t ∧ Failed .illegalOpcode s t)) ∧
  (∀ s : State, s.EngineNext → s.pendV = true → 0xD ≤ s.pend.op →
    ∃ t, step s = .next t ∧ Failed .illegalOpcode s.eventTaken t)

/-! ### The matrix family (40_matrix.md) -/

/-- NOP completes and changes nothing else (R100). -/
def Obligations.NopChangesNothing : Prop :=
  ∀ s : State, ∃ t, exec .nop s = .next t ∧ Completed .none s t ∧ DataKept s t ∧ Untouched s t

/-- IDENT completes with the identity in M[rd] and changes nothing else (R101, R107). -/
def Obligations.IdentLoadsIdentity : Prop :=
  ∀ (rd : RegNo) (s : State), s.N ≤ 32 →
    ∃ t, exec (.ident rd) s = .next t ∧
      (∀ i j, (t.M rd).cell i j = true ↔ i < s.N ∧ i = j) ∧
      MatsKeptExcept rd s t ∧ RestKept s t ∧ Completed .none s t ∧ Untouched s t

/-- MOV completes with M[ra], as it was, in M[rd], and changes nothing else (R102). -/
def Obligations.MovCopiesMatrix : Prop :=
  ∀ (rd ra : RegNo) (s : State),
    ∃ t, exec (.mov rd ra) s = .next t ∧ t.M rd = s.M ra ∧
      MatsKeptExcept rd s t ∧ RestKept s t ∧ Completed .none s t ∧ Untouched s t

/-- MUL completes with the integer product of the operands, as they were, reduced mod 2, in M[rd], for every
aliasing of the registers, and changes nothing else (R103, R106, R113). -/
def Obligations.MulIsProductMod2 : Prop :=
  ∀ (rd ra rb : RegNo) (s : State), s.DataOk →
    ∃ t, exec (.mul rd ra rb) s = .next t ∧
      (∀ i j, (t.M rd).cellNat i j = productMod2 s.N (s.M ra) (s.M rb) i j) ∧
      MatsKeptExcept rd s t ∧ RestKept s t ∧ Completed .none s t ∧ Untouched s t

/-- MVMUL completes with the matrix-vector product mod 2 in V[rd] and changes nothing else (R104, R109). -/
def Obligations.MvmulIsProductMod2 : Prop :=
  ∀ (rd ra rb : RegNo) (s : State), s.DataOk →
    ∃ t, exec (.mvmul rd ra rb) s = .next t ∧
      (∀ i, vecNat (t.V rd) i =
        if i < s.N then
          (∑ k ∈ Finset.range s.N, (s.M ra).cellNat i k * vecNat (s.V rb) k) % 2
        else 0) ∧
      (∀ r, r ≠ rd → t.V r = s.V r) ∧ t.mats = s.mats ∧ t.log = s.log ∧ t.draws = s.draws ∧
      t.status.eq = s.status.eq ∧ Completed .none s t ∧ Untouched s t

/-- CMPEQ completes with EQ = 1 exactly when the operands agree cell by cell, which is when they are equal,
and changes nothing else (R105, R108). -/
def Obligations.CmpeqComparesCells : Prop :=
  ∀ (ra rb : RegNo) (s : State), s.DataOk →
    ∃ t, exec (.cmpeq ra rb) s = .next t ∧
      (t.status.eq = true ↔ SameCells s.N (s.M ra) (s.M rb)) ∧
      (t.status.eq = true ↔ s.M ra = s.M rb) ∧
      t.mats = s.mats ∧ t.vecs = s.vecs ∧ t.log = s.log ∧ t.draws = s.draws ∧
      Completed .none s t ∧ Untouched s t

/-- MatMul is the matrix product over the field of two elements (R17, R106). -/
def Obligations.MatMulIsGF2Product : Prop :=
  ∀ (N : Nat) (A B : Mat), N ≤ 32 → (matMul A B N).toGF2 N = A.toGF2 N * B.toGF2 N

/-- The identity law (R110). -/
def Obligations.IdentityLaw : Prop :=
  ∀ (N : Nat) (X : Mat), X.InRegion N → matMul (ident N) X N = X ∧ matMul X (ident N) N = X

/-- MatMul is associative (R111). -/
def Obligations.MatMulAssociative : Prop :=
  ∀ (N : Nat) (A B C : Mat), matMul (matMul A B N) C N = matMul A (matMul B C N) N

/-! ### The generators (41_generators.md) -/

/-- SWAPGEN with a valid pair completes with Swap(m, n) in M[rd], by the source's cell formula, and changes
nothing else (R131, R134). -/
def Obligations.SwapgenBuildsSwap : Prop :=
  ∀ (rd : RegNo) (m n : Nat) (s : State), s.N ≤ 32 → m < s.N → n < s.N → m ≠ n →
    ∃ t, exec (.swapgen rd m n) s = .next t ∧
      (∀ i j, (t.M rd).cell i j = true ↔
        i < s.N ∧ ((i = j ∧ i ≠ m ∧ i ≠ n) ∨ (i = m ∧ j = n) ∨ (i = n ∧ j = m))) ∧
      MatsKeptExcept rd s t ∧ RestKept s t ∧ Completed .none s t ∧ Untouched s t

/-- ADDGEN with a valid pair completes with AddRow(m, n) in M[rd] and changes nothing else (R132, R135). -/
def Obligations.AddgenBuildsAddRow : Prop :=
  ∀ (rd : RegNo) (m n : Nat) (s : State), s.N ≤ 32 → m < s.N → n < s.N → m ≠ n →
    ∃ t, exec (.addgen rd m n) s = .next t ∧
      (∀ i j, (t.M rd).cell i j = true ↔ (i < s.N ∧ i = j) ∨ (i = m ∧ j = n)) ∧
      MatsKeptExcept rd s t ∧ RestKept s t ∧ Completed .none s t ∧ Untouched s t

/-- The index errors of the four commands that take indices, in the order of R201, LOG_FULL last and for APPLY
only; each leaves everything but the status (R131, R132, R152, R201, R203). -/
def Obligations.IndexErrorsInOrder : Prop :=
  ∀ (rd : RegNo) (m n : Nat) (s : State) (i : Instr),
    (i = .swapgen rd m n ∨ i = .addgen rd m n ∨ i = .applyAdd rd m n ∨ i = .applySwap rd m n) →
    (s.N ≤ m ∨ s.N ≤ n → ∃ t, exec i s = .next t ∧ Failed .indexRange s t) ∧
    (m < s.N → n < s.N → m = n → ∃ t, exec i s = .next t ∧ Failed .indexEqual s t) ∧
    (m < s.N → n < s.N → m ≠ n → s.loglen = 1024 → (i = .applyAdd rd m n ∨ i = .applySwap rd m n) →
      ∃ t, exec i s = .next t ∧ Failed .logFull s t)

/-- Left action: a composer step exchanges two rows, or adds row n into row m (R136). -/
def Obligations.LeftActionIsRowOperation : Prop :=
  ∀ (N m n : Nat) (X : Mat), N ≤ 32 → X.InRegion N → m < N → n < N → m ≠ n →
    matMul (swapMat N m n) X N = rowSwap X m n ∧ matMul (addMat N m n) X N = rowAdd X m n

/-- Right action: columns m and n exchanged, or column n replaced by column n XOR column m; and Swap(m, n) is
Swap(n, m) (R137). -/
def Obligations.RightActionIsColumnOperation : Prop :=
  ∀ (N m n : Nat) (X : Mat), N ≤ 32 → X.InRegion N → m < N → n < N → m ≠ n →
    matMul X (swapMat N m n) N = colSwap X m n ∧ matMul X (addMat N m n) N = colAdd X m n ∧
    swapMat N m n = swapMat N n m

/-- Every elementary matrix of a valid pair is its own inverse (R138). -/
def Obligations.ElementarySelfInverse : Prop :=
  ∀ N m n : Nat, N ≤ 32 → m < N → n < N → m ≠ n →
    matMul (swapMat N m n) (swapMat N m n) N = ident N ∧
    matMul (addMat N m n) (addMat N m n) N = ident N

/-- A draw is always a valid pair, whatever the source returns, and every valid pair can be drawn (R10, R140). How a draw reaches the model is its own choice (log 3). -/
def Obligations.DrawIsEveryValidPair : Prop :=
  ∀ N : Nat, 2 ≤ N →
    (∀ d : Draws, (drawPair N d).1.1 < N ∧ (drawPair N d).1.2 < N ∧ (drawPair N d).1.1 ≠ (drawPair N d).1.2) ∧
    (∀ m n : Nat, m < N → n < N → m ≠ n → ∀ d : Draws,
      drawPair N { d with pairInputs := (m, n) :: d.pairInputs } = ((m, n), d))

/-! ### The composer (42_composer.md) -/

/-- APPLY with a valid pair and room in the log completes: M[rd] has its rows m and n exchanged (SWAP), or row
n added into row m (ADD), the entry is logged, and nothing else changes (R150, R151, R152). -/
def Obligations.ApplyActsAndLogs : Prop :=
  ∀ (rd : RegNo) (m n : Nat) (s : State), s.N ≤ 32 → (s.M rd).InRegion s.N →
    m < s.N → n < s.N → m ≠ n → s.loglen < 1024 →
    (∃ t, exec (.applySwap rd m n) s = .next t ∧
      (t.M rd).row m = (s.M rd).row n ∧ (t.M rd).row n = (s.M rd).row m ∧
      (∀ i, i ≠ m → i ≠ n → (t.M rd).row i = (s.M rd).row i) ∧
      t.log = s.log ++ [{ kind := .swap, m := BitVec.ofNat 5 m, n := BitVec.ofNat 5 n }] ∧
      MatsKeptExcept rd s t ∧ t.vecs = s.vecs ∧ t.draws = s.draws ∧ t.status.eq = s.status.eq ∧
      Completed .none s t ∧ Untouched s t) ∧
    (∃ t, exec (.applyAdd rd m n) s = .next t ∧
      (t.M rd).row m = (s.M rd).row m ^^^ (s.M rd).row n ∧
      (∀ i, i ≠ m → (t.M rd).row i = (s.M rd).row i) ∧
      t.log = s.log ++ [{ kind := .addRow, m := BitVec.ofNat 5 m, n := BitVec.ofNat 5 n }] ∧
      MatsKeptExcept rd s t ∧ t.vecs = s.vecs ∧ t.draws = s.draws ∧ t.status.eq = s.status.eq ∧
      Completed .none s t ∧ Untouched s t)

/-- The entry APPLY logs, read as a word, is `w[10:0]` of its command word (R26, R81). -/
def Obligations.AppliedEntryIsCommandBits : Prop :=
  ∀ (rd : RegNo) (m n : Nat), m < 32 → n < 32 →
    (mkEntry .swap m n).toWord = encode (.applySwap rd m n) &&& 0x7FF ∧
    (mkEntry .addRow m n).toWord = encode (.applyAdd rd m n) &&& 0x7FF

/-- COMPOSE, when its checks pass, completes: K operations, each valid and of the policy's kind, each the pair that
DrawPair and the kind that ChooseKind answer in turn, are applied to M[rd] in order and logged, and nothing else
changes (R153, R154, R156, R158). The inputs that the draws take are the model's form (log 3). -/
def Obligations.ComposeAppliesDrawnOperations : Prop :=
  ∀ (rd : RegNo) (s : State), s.N ≤ 32 → 2 ≤ s.N ∨ s.iter.toNat = 0 → s.loglen + s.iter.toNat ≤ 1024 →
    ∃ (t : State) (es : List LogEntry) (ds : Nat → Draws), exec (.compose rd) s = .next t ∧
      es.length = s.iter.toNat ∧ (∀ e ∈ es, e.Valid s.N) ∧
      ds 0 = s.draws ∧ ds s.iter.toNat = t.draws ∧
      (∀ i < s.iter.toNat,
        let pair := drawPair s.N (ds i)
        let kind := chooseKind s.policy.mode pair.2
        es[i]? = some (mkEntry kind.1 pair.1.1 pair.1.2) ∧ ds (i + 1) = kind.2) ∧
      (s.policy.mode = .add → ∀ e ∈ es, e.kind = .addRow) ∧
      (s.policy.mode = .swap → ∀ e ∈ es, e.kind = .swap) ∧
      t.M rd = applyAll s.N (s.M rd) es ∧ t.log = s.log ++ es ∧
      MatsKeptExcept rd s t ∧ t.vecs = s.vecs ∧ t.status.eq = s.status.eq ∧
      Completed .none s t ∧ Untouched s t

/-- Whatever valid pairs the draw sources return, and in MIXED mode whatever kinds, COMPOSE applies and logs exactly
those, in every mode: AddRow of the pairs drawn in ADD, Swap of them in SWAP, the kinds drawn in MIXED. It takes one
pair per operation, and a kind in MIXED mode only (R10, R11, R153, R154). The supplied inputs are the model's form
of a draw (log 3). -/
def Obligations.ComposeAdmitsEveryDraw : Prop :=
  ∀ (rd : RegNo) (s : State) (es : List LogEntry) (ps : List (Nat × Nat)) (ks : List Bool),
    (∀ e ∈ es, e.Valid s.N) →
    (s.policy.mode = .add → ∀ e ∈ es, e.kind = .addRow) →
    (s.policy.mode = .swap → ∀ e ∈ es, e.kind = .swap) →
    s.iter.toNat = es.length → s.loglen + es.length ≤ 1024 →
    s.draws.pairInputs = es.map (fun e => (e.m.toNat, e.n.toNat)) ++ ps →
    s.draws.kindInputs = (if s.policy.mode = .mixed then es.map (fun e => decide (e.kind = .swap)) else []) ++ ks →
    ∃ t, exec (.compose rd) s = .next t ∧ t.M rd = applyAll s.N (s.M rd) es ∧ t.log = s.log ++ es ∧
      t.draws = { s.draws with pairInputs := ps, kindInputs := ks }

/-- COMPOSE checks before any draw or write: DEGENERATE for DIM < 2 with K > 0, and otherwise LOG_FULL when the
log cannot hold K more; each leaves everything but the status, no draw taken (R155, R201, R203). -/
def Obligations.ComposeErrorsInOrder : Prop :=
  ∀ (rd : RegNo) (s : State),
    (s.N < 2 → 0 < s.iter.toNat → ∃ t, exec (.compose rd) s = .next t ∧ Failed .degenerate s t) ∧
    (2 ≤ s.N ∨ s.iter.toNat = 0 → 1024 < s.loglen + s.iter.toNat →
      ∃ t, exec (.compose rd) s = .next t ∧ Failed .logFull s t)

/-- COMPOSE with K = 0 succeeds at every DIM and changes neither M[rd] nor the log (R157). -/
def Obligations.ComposeZeroChangesNothing : Prop :=
  ∀ (rd : RegNo) (s : State), s.iter.toNat = 0 → s.loglen ≤ 1024 →
    ∃ t, exec (.compose rd) s = .next t ∧ Completed .none s t ∧ DataKept s t ∧ Untouched s t

/-- LOGCLR completes with the log empty, every index of the log window reading 0, and changes nothing else
(R160, R57). -/
def Obligations.LogclrEmptiesLog : Prop :=
  ∀ s : State, ∃ t, exec .logclr s = .next t ∧ t.loglen = 0 ∧
    (∀ i : Fin 1024, memRead t (BitVec.ofNat 16 (0x3000 + 4 * i.val)) .word = (.read .okay 0, t)) ∧
    t.mats = s.mats ∧ t.vecs = s.vecs ∧ t.draws = s.draws ∧ t.status.eq = s.status.eq ∧
    Completed .none s t ∧ Untouched s t

/-! ### Key and verifier (43_key_verify.md) -/

/-- KEYDERIVE completes with E_0 · (E_1 · (… · I)) in M[rd], the first applied operation leftmost; with an empty
log that is the identity; the log is only read, and nothing else changes (R180, R184). -/
def Obligations.KeyderiveIsRecordedProduct : Prop :=
  ∀ (rd : RegNo) (s : State), s.N ≤ 32 → (∀ e ∈ s.log, e.Valid s.N) →
    ∃ t, exec (.keyderive rd) s = .next t ∧
      t.M rd = s.log.foldr (fun e acc => matMul (elem s.N e) acc s.N) (ident s.N) ∧
      MatsKeptExcept rd s t ∧ RestKept s t ∧ Completed .none s t ∧ Untouched s t

/-- The two equivalent computations of the key: column operations in recorded order, and left multiplication in
reverse order (R181). -/
def Obligations.KeyEquivalentComputations : Prop :=
  ∀ (N : Nat) (log : List LogEntry), N ≤ 32 → (∀ e ∈ log, e.Valid N) →
    keyByColumns N log = keyOf N log ∧ keyByReverse N log = keyOf N log

/-- The key inverts the transform: the key of a log times what the logged operations make of X0 is X0 (R182). -/
def Obligations.KeyInvertsTransform : Prop :=
  ∀ (N : Nat) (log : List LogEntry) (X0 : Mat), N ≤ 32 → (∀ e ∈ log, e.Valid N) → X0.InRegion N →
    matMul (keyOf N log) (applyAll N X0 log) N = X0

/-- VERIFY completes with Key · Scrambled in M[rd] and EQ = 1 exactly when that product equals the original, as it
was, cell by cell, for every aliasing; a mismatch is no error; nothing else changes (R185, R187). -/
def Obligations.VerifyComparesRecovered : Prop :=
  ∀ (rd ra rb rc : RegNo) (s : State), s.DataOk →
    ∃ t, exec (.verify rd ra rb rc) s = .next t ∧
      (∀ i j, (t.M rd).cellNat i j = productMod2 s.N (s.M ra) (s.M rb) i j) ∧
      (t.status.eq = true ↔ SameCells s.N (t.M rd) (s.M rc)) ∧
      (t.status.eq = true ↔ t.M rd = s.M rc) ∧
      MatsKeptExcept rd s t ∧ t.vecs = s.vecs ∧ t.log = s.log ∧ t.draws = s.draws ∧
      Completed .none s t ∧ Untouched s t

/-- A register that holds what the logged operations make of X0 goes on doing so under every APPLY and COMPOSE on
it, with any draws, in error or not (R156, R182). -/
def Obligations.ComposerKeepsTracking : Prop :=
  ∀ (b : RegNo) (X0 : Mat) (m n : Nat) (s t : State) (i : Instr), Tracks s b X0 →
    (i = .applyAdd b m n ∨ i = .applySwap b m n ∨ i = .compose b) →
    exec i s = .next t → Tracks t b X0

/-- The round trip: where M[b] holds what the log makes of X0 and M[o] holds X0, KEYDERIVE Mk and then
VERIFY Md, Mk, Mb, Mo give EQ = 1 and M[d] = X0, for every log (R182, R186). -/
def Obligations.RoundTripVerifies : Prop :=
  ∀ (b o k d : RegNo) (X0 : Mat) (s : State), s.Inv → X0.InRegion s.N → Tracks s b X0 → s.M o = X0 →
    k ≠ b → k ≠ o →
    ∃ t, exec (.keyderive k) s = .next t ∧
      ∃ u, exec (.verify d k b o) t = .next u ∧ u.status.eq = true ∧ u.M d = X0 ∧ u.status.errcode = .none

/-! ### Errors, completion and interrupt (60_exceptions.md) -/

/-- A command that ends with an error changes only BUSY, DONE, ERR and ERRCODE, and PEND_V with BUSY: no register,
no log entry, neither LOGLEN nor EQ (R203). -/
def Obligations.ErrorsArePrecise : Prop :=
  ∀ s t : State, s.pendV = true → engineTurn s = .next t → t.status.errcode ≠ .none →
    t = { s with
          pendV := false
          status :=
            { busy := false, done := true, err := true, eq := s.status.eq, haz := s.status.haz,
              errcode := t.status.errcode } }

/-- The Engine step is enabled exactly when PEND_V = 1, always completes, and sets the status as R206 says; a word
StaticCheck rejects ends with its code. No step of the machine stops it (R206, R211). That a turn without a
command is a step that changes nothing is the model's choice (log 6). -/
def Obligations.EngineStepCompletes : Prop :=
  ∀ s : State,
    (s.pendV = false → engineTurn s = .next s) ∧
    (s.pendV = true → ∃ t c, engineTurn s = .next t ∧ Completed c s t ∧ Untouched s t ∧
      (staticCheck s.pend ≠ .none → c = staticCheck s.pend)) ∧
    ∃ t, step s = .next t

/-- What each command writes is what R22 says, and nothing else: its destination registers, the log for APPLY,
COMPOSE and LOGCLR, EQ for CMPEQ and VERIFY; only COMPOSE takes a draw (R22, R35, R36). -/
def Obligations.CommandsWriteOnlyDestinations : Prop :=
  ∀ (i : Instr) (s t : State), exec i s = .next t →
    (∀ r, destM i ≠ some r → t.M r = s.M r) ∧
    (∀ r, destV i ≠ some r → t.V r = s.V r) ∧
    (appendsLog i = true → s.log <+: t.log) ∧
    (appendsLog i = false → i ≠ .logclr → t.log = s.log) ∧
    (writesEq i = false → t.status.eq = s.status.eq) ∧
    ((∀ rd, i ≠ .compose rd) → t.draws = s.draws) ∧
    t.status.haz = s.status.haz ∧ Untouched s t

/-- Commands read only what R22 lists: states that agree on the registers, the log, DIM, ITER, MODE and the draws
give results that agree, whatever SWAPW, CTRL, EQ, HAZ and the rest hold (R22, R32, R36). -/
def Obligations.CommandsReadOnlyInputs : Prop :=
  ∀ (i : Instr) (s s' t t' : State), SameInputs s s' → exec i s = .next t → exec i s' = .next t' →
    SameInputs t t' ∧ t.status.errcode = t'.status.errcode ∧
    (writesEq i = true → t.status.eq = t'.status.eq)

/-- At the bus, a command changes no byte of the address space but those of STATUS, of its destination register's
rows, and, for APPLY and COMPOSE, of LOGLEN and of the log window from the old LOGLEN on; LOGCLR changes
LOGLEN's and the log window's (R22, R54). -/
def Obligations.AddressSpaceFrame : Prop :=
  ∀ (i : Instr) (s t : State) (a : Addr), exec i s = .next t → peekByte t a ≠ peekByte s a →
    (0x0C ≤ a.toNat ∧ a.toNat < 0x10) ∨
    (∃ rd, destM i = some rd ∧ 0x1000 + 0x80 * rd.val ≤ a.toNat ∧ a.toNat < 0x1000 + 0x80 * rd.val + 0x80) ∨
    (∃ rd, destV i = some rd ∧ 0x2000 + 4 * rd.val ≤ a.toNat ∧ a.toNat < 0x2000 + 4 * rd.val + 4) ∨
    ((appendsLog i = true ∨ i = .logclr) ∧ 0x20 ≤ a.toNat ∧ a.toNat < 0x24) ∨
    (appendsLog i = true ∧ 0x3000 + 4 * s.loglen ≤ a.toNat ∧ a.toNat < 0x4000) ∨
    (i = .logclr ∧ 0x3000 ≤ a.toNat ∧ a.toNat < 0x4000)

/-- IRQ is (DONE & IE_DONE) | (ERR & IE_ERR) | (HAZ & IE_HAZ), and 0 after reset (R210, R39). -/
def Obligations.IrqIsEnabledStatus : Prop :=
  (∀ s : State, s.irq = true ↔
    (s.status.done = true ∧ s.ctrl.ieDone = true) ∨ (s.status.err = true ∧ s.ctrl.ieErr = true) ∨
    (s.status.haz = true ∧ s.ctrl.ieHaz = true)) ∧
  State.reset.irq = false

/-! ### The bus (20_memory.md, 10_state.md) -/

/-- The address map: each target is reached at its offset of R54 and no other word-aligned offset, and exactly the
offsets of R54 are mapped. -/
def Obligations.AddressMapIsTheTable : Prop :=
  (∀ t : Target, target t.address = some t ∧ t.address.toNat % 4 = 0) ∧
  (∀ (a : Addr) (t : Target), a.toNat % 4 = 0 → target a = some t → t.address = a) ∧
  (∀ a : Addr, (∃ t, target a = some t) ↔ isMapped a)

/-- A sub-word, misaligned or unmapped access answers ERROR, a read with data 0, and changes no state; a write to
ID, PARAM, LOGLEN or the log window answers OKAY and is ignored; a read of CMD answers OKAY with 0; ID and PARAM
read as their constants (R27, R28, R34, R52, R53). -/
def Obligations.RefusedAccessesChangeNothing : Prop :=
  (∀ (s : State) (a : Addr) (size : AccessSize) (d : Word),
    (size ≠ .word ∨ a.toNat % 4 ≠ 0 ∨ ¬ isMapped a) →
    memRead s a size = (.read .error 0, s) ∧ memWrite s a size d = (.write .error, s)) ∧
  (∀ (s : State) (d : Word) (i : Fin 1024),
    memWrite s 0x0000 .word d = (.write .okay, s) ∧
    memWrite s 0x0004 .word d = (.write .okay, s) ∧
    memWrite s 0x0020 .word d = (.write .okay, s) ∧
    memWrite s (BitVec.ofNat 16 (0x3000 + 4 * i.val)) .word d = (.write .okay, s) ∧
    memRead s 0x0010 .word = (.read .okay 0, s) ∧
    memRead s 0x0000 .word = (.read .okay 0x47463201, s) ∧
    memRead s 0x0004 .word = (.read .okay 0x04008820, s))

/-- The matrix window (R55). -/
def Obligations.MatrixWindowAccess : Prop :=
  ∀ (s : State) (r : RegNo) (i : Fin 32) (d : Word),
    let a : Addr := BitVec.ofNat 16 (0x1000 + 0x80 * r.val + 4 * i.val)
    (s.status.busy = true →
      memRead s a .word = (.read .okay 0, s.setHaz) ∧ memWrite s a .word d = (.write .okay, s.setHaz)) ∧
    (s.status.busy = false → i.val < s.N →
      memRead s a .word = (.read .okay ((s.M r).row i.val), s) ∧
      ∃ t, memWrite s a .word d = (.write .okay, t) ∧ t = { s with mats := t.mats } ∧
        (t.M r).row i.val = d &&& colmask s.N ∧
        (∀ k, k ≠ i.val → (t.M r).row k = (s.M r).row k) ∧ MatsKeptExcept r s t) ∧
    (s.status.busy = false → s.N ≤ i.val →
      memRead s a .word = (.read .okay 0, s) ∧ memWrite s a .word d = (.write .okay, s))

/-- The vector window (R56). -/
def Obligations.VectorWindowAccess : Prop :=
  ∀ (s : State) (r : RegNo) (d : Word),
    let a : Addr := BitVec.ofNat 16 (0x2000 + 4 * r.val)
    (s.status.busy = true →
      memRead s a .word = (.read .okay 0, s.setHaz) ∧ memWrite s a .word d = (.write .okay, s.setHaz)) ∧
    (s.status.busy = false →
      memRead s a .word = (.read .okay (s.V r), s) ∧
      ∃ t, memWrite s a .word d = (.write .okay, t) ∧ t = { s with vecs := t.vecs } ∧
        t.V r = d &&& colmask s.N ∧ ∀ q, q ≠ r → t.V q = s.V q)

/-- The log window: entry i below LOGLEN as the word of R26, 0 at and above it; writes are ignored and never set
HAZ (R57). -/
def Obligations.LogWindowAccess : Prop :=
  ∀ (s : State) (i : Fin 1024) (d : Word),
    let a : Addr := BitVec.ofNat 16 (0x3000 + 4 * i.val)
    (s.status.busy = true → memRead s a .word = (.read .okay 0, s.setHaz)) ∧
    (s.status.busy = false → ∀ e, s.log[i.val]? = some e →
      ∃ w : Word, memRead s a .word = (.read .okay w, s) ∧
        w.toNat = (if e.kind = .swap then 1024 else 0) + 32 * e.m.toNat + e.n.toNat) ∧
    (s.status.busy = false → s.loglen ≤ i.val → memRead s a .word = (.read .okay 0, s)) ∧
    memWrite s a .word d = (.write .okay, s)

/-- A DIM write: ignored with HAZ while BUSY; a legal value, the old one too, begins a new run; any other value of
the whole word is ignored without a flag (R30, R233). -/
def Obligations.DimWriteBeginsRun : Prop :=
  ∀ (s : State) (d : Word),
    (s.status.busy = true → memWrite s 0x0014 .word d = (.write .okay, s.setHaz)) ∧
    (s.status.busy = false → 1 ≤ d.toNat → d.toNat ≤ 32 →
      ∃ t, memWrite s 0x0014 .word d = (.write .okay, t) ∧ t.N = d.toNat ∧ (∀ r, t.M r = Mat.zero) ∧
        (∀ r, t.V r = 0) ∧ t.loglen = 0 ∧ t.status.eq = false ∧
        t = { s with dim := t.dim, mats := t.mats, vecs := t.vecs, log := t.log,
                     status := { s.status with eq := false } } ∧
        memRead t 0x0014 .word = (.read .okay d, t)) ∧
    (s.status.busy = false → d.toNat = 0 ∨ 32 < d.toNat → memWrite s 0x0014 .word d = (.write .okay, s))

/-- ITER and POLICY writes: ignored with HAZ while BUSY; otherwise ITER takes d[15:0], SWAPW takes d[15:8], and MODE
takes d[1:0] unless that is 3; nothing else changes (R31, R32). -/
def Obligations.IterAndPolicyWrites : Prop :=
  ∀ (s : State) (d : Word),
    (s.status.busy = true → memWrite s 0x0018 .word d = (.write .okay, s.setHaz) ∧
      memWrite s 0x001C .word d = (.write .okay, s.setHaz)) ∧
    (s.status.busy = false →
      (∃ t, memWrite s 0x0018 .word d = (.write .okay, t) ∧ t = { s with iter := t.iter } ∧
        t.iter.toNat = d.toNat % 65536 ∧
        memRead t 0x0018 .word = (.read .okay (d &&& 0xFFFF), t)) ∧
      (∃ t, memWrite s 0x001C .word d = (.write .okay, t) ∧ t = { s with policy := t.policy } ∧
        t.policy.swapw.toNat = d.toNat / 256 % 256 ∧
        (d.toNat % 4 = 3 → t.policy.mode = s.policy.mode) ∧
        (d.toNat % 4 ≠ 3 → t.policy.mode.code = d.toNat % 4) ∧
        memRead t 0x001C .word = (.read .okay ((d &&& 0xFF00) ||| BitVec.ofNat 32 t.policy.mode.code), t)))

/-- The registers a host may access at any time, BUSY or not: STATUS has its fields at the bits of R33, a write of 1
clears DONE, ERR or HAZ and nothing else; CTRL takes and shows its low three bits; CTRL, DIM, ITER, POLICY and LOGLEN
read as their values, and no such read has a side effect (R29 to R33, R35, R58). -/
def Obligations.StatusAndCtrlAccess : Prop :=
  ∀ (s : State) (d : Word),
    (∃ w : Word, memRead s 0x000C .word = (.read .okay w, s) ∧
      w.getLsbD 0 = s.status.busy ∧ w.getLsbD 1 = s.status.done ∧ w.getLsbD 2 = s.status.err ∧
      w.getLsbD 3 = s.status.eq ∧ w.getLsbD 4 = s.status.haz ∧
      w.toNat / 256 = s.status.errcode.code ∧ w &&& 0xE0 = 0) ∧
    (∃ t, memWrite s 0x000C .word d = (.write .okay, t) ∧ t = { s with status := t.status } ∧
      t.status.busy = s.status.busy ∧ t.status.eq = s.status.eq ∧ t.status.errcode = s.status.errcode ∧
      (t.status.done = true ↔ s.status.done = true ∧ d.getLsbD 1 = false) ∧
      (t.status.err = true ↔ s.status.err = true ∧ d.getLsbD 2 = false) ∧
      (t.status.haz = true ↔ s.status.haz = true ∧ d.getLsbD 4 = false)) ∧
    (∃ t, memWrite s 0x0008 .word d = (.write .okay, t) ∧ t = { s with ctrl := t.ctrl } ∧
      memRead t 0x0008 .word = (.read .okay (d &&& 7), t)) ∧
    memRead s 0x0008 .word = (.read .okay
      (BitVec.ofNat 32 (s.ctrl.ieDone.toNat + 2 * s.ctrl.ieErr.toNat + 4 * s.ctrl.ieHaz.toNat)), s) ∧
    memRead s 0x0014 .word = (.read .okay (BitVec.ofNat 32 s.N), s) ∧
    memRead s 0x0018 .word = (.read .okay (BitVec.ofNat 32 s.iter.toNat), s) ∧
    memRead s 0x001C .word = (.read .okay
      (BitVec.ofNat 32 (256 * s.policy.swapw.toNat + s.policy.mode.code)), s) ∧
    memRead s 0x0020 .word = (.read .okay (BitVec.ofNat 32 s.loglen), s)

/-- A CMD write: accepted while idle, with PEND latched, BUSY set, DONE, ERR and ERRCODE cleared, EQ and HAZ kept;
discarded with HAZ set while BUSY; OKAY in both cases (R205, R37). -/
def Obligations.CmdWriteAcceptance : Prop :=
  ∀ (s : State) (d : Word),
    (s.status.busy = false →
      memWrite s 0x0010 .word d = (.write .okay,
        { s with
          pend := d
          pendV := true
          status :=
            { busy := true, done := false, err := false, eq := s.status.eq, haz := s.status.haz,
              errcode := .none } })) ∧
    (s.status.busy = true →
      memWrite s 0x0010 .word d = (.write .okay, { s with status := { s.status with haz := true } }))

/-- While BUSY no host transaction changes what the running command reads, or the command itself: registers, log,
DIM, ITER, POLICY, PEND, PEND_V, BUSY, EQ and ERRCODE (R58, R65, R66). -/
def Obligations.BusyProtectsOperands : Prop :=
  ∀ (s : State) (tr : Transaction), s.status.busy = true →
    SameInputs s (transact s tr) ∧ (transact s tr).policy = s.policy ∧ (transact s tr).pend = s.pend ∧
    (transact s tr).pendV = s.pendV ∧ (transact s tr).status.busy = true ∧
    (transact s tr).status.eq = s.status.eq ∧ (transact s tr).status.errcode = s.status.errcode

/-- Exactly the events of R239 set HAZ, and only a write of 1 to its bit, or reset, clears it. -/
def Obligations.HazSetAndClearedExactly : Prop :=
  (∀ (s : State) (tr : Transaction), s.status.haz = false →
    ((transact s tr).status.haz = true ↔ s.status.busy = true ∧ BreaksBusyRule tr)) ∧
  (∀ (s : State) (tr : Transaction), s.status.haz = true →
    ((transact s tr).status.haz = false ↔ ClearsHaz tr)) ∧
  (∀ s t : State, engineTurn s = .next t → t.status.haz = s.status.haz) ∧
  (∀ s : State, s.resetEvent.status.haz = false)

/-- Reads have no side effect but HAZ at a window while BUSY, and a repeated read returns the same; every write but
a CMD write and a legal DIM write is idempotent (R59). -/
def Obligations.AccessesRepeatable : Prop :=
  ∀ (s : State) (a : Addr) (size : AccessSize) (d : Word),
    ((memRead s a size).2 = s ∨
      ((memRead s a size).2 = s.setHaz ∧ s.status.busy = true ∧ BreaksBusyRule (.read a size))) ∧
    (memRead (memRead s a size).2 a size).1 = (memRead s a size).1 ∧
    (a.toNat ≠ 0x10 → ¬ (a.toNat = 0x14 ∧ 1 ≤ d.toNat ∧ d.toNat ≤ 32) →
      (memWrite (memWrite s a size d).2 a size d).2 = (memWrite s a size d).2)

/-! ### Reset, invariant and progress (70_reset_and_hazards.md) -/

/-- The values R40 gives after reset. The value 0 of PEND is the model's choice (log 5) and is not stated. -/
def Obligations.ResetValues : Prop :=
  (∀ r, State.reset.M r = Mat.zero) ∧ (∀ r, State.reset.V r = 0) ∧ State.reset.loglen = 0 ∧
  State.reset.ctrl.toWord = 0 ∧ State.reset.status.toWord = 0 ∧ State.reset.dim.toNat = 21 ∧
  State.reset.iter.toNat = 1000 ∧ State.reset.policy.toWord = 0 ∧ State.reset.pendV = false ∧
  State.reset.irq = false ∧ Config.idWord = 0x47463201 ∧ Config.paramWord = 0x04008820

/-- A reset event puts every piece of architectural state into its reset value, whatever the Engine is doing, and
abandons a pending command (R230). That the records of the host and the draws stay is the model's choice
(log 14), and so is the value that the equality gives PEND, which R37, R40 and R232 leave open (log 5). -/
def Obligations.ResetEventRestoresState : Prop :=
  ∀ (s : State) (es : List Event), s.events = .reset :: es →
    ∃ t, step s = .next t ∧
      t = { State.reset with events := es, responses := s.responses, draws := s.draws } ∧
      t.pendV = false ∧ t.status.done = false ∧ t.irq = false

/-- The state after reset meets the invariant (R24, R30, R37, R40). -/
def Obligations.ResetMeetsInvariant : Prop := State.reset.Inv

/-- Every step keeps the invariant: DIM legal, every cell and element outside the DIM region 0, the log bounded and
its entries valid, PEND_V = BUSY, and the status of a running command as acceptance left it (R24, R25, R30,
R37, R158). -/
def Obligations.StepKeepsInvariant : Prop :=
  ∀ s t : State, s.Inv → step s = .next t → t.Inv

/-- Progress: from every state with a command pending, after at most one step more than the events still to come the
machine is idle, PEND_V = 0 and BUSY = 0; the command has completed, DONE = 1, when no reset is among those events,
and otherwise a reset may have abandoned it (R63, R206, R230, R243). And every run of a host program reaches its end
(R244). The finite list of events is the model's form of the order (log 1). -/
def Obligations.PendingCommandCompletes : Prop :=
  (∀ s : State, s.pendV = true →
    ∃ (k : Nat) (t : State), k ≤ s.events.length + 1 ∧ Sys2Proof.core.run k s = .next t ∧
      t.pendV = false ∧ t.status.busy = false ∧
      ((∀ e ∈ s.events, e ≠ .reset) → t.status.done = true)) ∧
  (∀ s : State, ∃ t, endOfRun (s.events.length + 1) s = some t ∧ t.Finished)
end

