-- ==== Sys2Proof/Laws/Bits.lean ====
section
/-! SUPPORT. What each bit operation of Machine/Bits.lean does, bit by bit. -/

namespace Sys2Proof.Machine

/-- Bit j of `1 << i`. -/
@[simp] theorem getLsbD_oneBit (i j : Nat) : (oneBit i).getLsbD j = (decide (j < 32) && decide (j = i)) := by
  by_cases h : j = i
  · subst h; by_cases h32 : j < 32 <;> simp [oneBit, h32]
  · by_cases hij : i < j
    · simp [oneBit, BitVec.getLsbD_shiftLeft, h]; omega
    · simp [oneBit, BitVec.getLsbD_shiftLeft, h]; omega

/-- Bit j of `colmask(N)`: the columns below N (R14). -/
@[simp] theorem getLsbD_colmask (N j : Nat) : (colmask N).getLsbD j = (decide (j < 32) && decide (j < N)) := by
  simp [colmask, BitVec.getLsbD_ofNat, Nat.testBit_two_pow_sub_one]

/-- Bit j of a word built bit by bit. -/
@[simp] theorem getLsbD_wordOfBits (f : Nat → Bool) (len j : Nat) :
    (wordOfBits f len).getLsbD j = (decide (j < 32) && decide (j < len) && f j) := by
  induction len with
  | zero => simp [wordOfBits]
  | succ len ih =>
    rw [wordOfBits]
    by_cases hj : j = len
    · subst hj; split <;> simp_all
    · have : j < len + 1 ↔ j < len := by omega
      split <;> simp_all

/-- Two words with the same 32 bits are the same word. -/
theorem word_ext {v w : Word} (h : ∀ j, j < 32 → v.getLsbD j = w.getLsbD j) : v = w :=
  BitVec.eq_of_getLsbD_eq h

/-- Masking with `colmask(N)` leaves nothing at or above column N (R55, R56). -/
theorem getLsbD_and_colmask (d : Word) (N j : Nat) :
    (d &&& colmask N).getLsbD j = (d.getLsbD j && decide (j < N)) := by
  rw [BitVec.getLsbD_and, getLsbD_colmask]
  by_cases hj : j < 32
  · rw [decide_eq_true hj, Bool.true_and]
  · rw [BitVec.getLsbD_of_ge d j (by omega), Bool.false_and, Bool.false_and]

/-- The number of set bits among the first `len`, as a sum of bits. -/
theorem countP_range_eq_sum (f : Nat → Bool) (len : Nat) :
    (List.range len).countP f = ∑ k ∈ Finset.range len, (f k).toNat := by
  induction len with
  | zero => rfl
  | succ len ih =>
    rw [List.range_succ, List.countP_append, ih, Finset.sum_range_succ]
    cases h : f len <;> simp [h]

/-- `parity(w)` is the sum of the bits mod 2 (R14). -/
theorem parity_toNat (w : Word) :
    (parity w).toNat = (∑ k ∈ Finset.range 32, (w.getLsbD k).toNat) % 2 := by
  rw [parity, popcount, countP_range_eq_sum]
  rcases Nat.mod_two_eq_zero_or_one (∑ k ∈ Finset.range 32, (w.getLsbD k).toNat) with h | h <;> simp [h]

end Sys2Proof.Machine
end

