-- ==== Sys2Proof/Laws/State.lean ====
section
/-! SUPPORT. One lemma per field per update of the state, so that no later proof unfolds a record update. -/

namespace Sys2Proof.Machine

variable (s : State)

section setM

@[simp] theorem State.setM_mats (r : RegNo) (X : Mat) : (s.setM r X).mats = s.mats.set r.val X := rfl
@[simp] theorem State.setM_vecs (r : RegNo) (X : Mat) : (s.setM r X).vecs = s.vecs := rfl
@[simp] theorem State.setM_log (r : RegNo) (X : Mat) : (s.setM r X).log = s.log := rfl
@[simp] theorem State.setM_ctrl (r : RegNo) (X : Mat) : (s.setM r X).ctrl = s.ctrl := rfl
@[simp] theorem State.setM_dim (r : RegNo) (X : Mat) : (s.setM r X).dim = s.dim := rfl
@[simp] theorem State.setM_iter (r : RegNo) (X : Mat) : (s.setM r X).iter = s.iter := rfl
@[simp] theorem State.setM_policy (r : RegNo) (X : Mat) : (s.setM r X).policy = s.policy := rfl
@[simp] theorem State.setM_status (r : RegNo) (X : Mat) : (s.setM r X).status = s.status := rfl
@[simp] theorem State.setM_pend (r : RegNo) (X : Mat) : (s.setM r X).pend = s.pend := rfl
@[simp] theorem State.setM_pendV (r : RegNo) (X : Mat) : (s.setM r X).pendV = s.pendV := rfl
@[simp] theorem State.setM_events (r : RegNo) (X : Mat) : (s.setM r X).events = s.events := rfl
@[simp] theorem State.setM_responses (r : RegNo) (X : Mat) : (s.setM r X).responses = s.responses := rfl
@[simp] theorem State.setM_draws (r : RegNo) (X : Mat) : (s.setM r X).draws = s.draws := rfl
@[simp] theorem State.setM_N (r : RegNo) (X : Mat) : (s.setM r X).N = s.N := rfl
@[simp] theorem State.setM_V (r : RegNo) (X : Mat) (q : RegNo) : (s.setM r X).V q = s.V q := rfl
@[simp] theorem State.setM_loglen (r : RegNo) (X : Mat) : (s.setM r X).loglen = s.loglen := rfl

end setM

section setV

@[simp] theorem State.setV_mats (r : RegNo) (v : Word) : (s.setV r v).mats = s.mats := rfl
@[simp] theorem State.setV_vecs (r : RegNo) (v : Word) : (s.setV r v).vecs = s.vecs.set r.val v := rfl
@[simp] theorem State.setV_log (r : RegNo) (v : Word) : (s.setV r v).log = s.log := rfl
@[simp] theorem State.setV_ctrl (r : RegNo) (v : Word) : (s.setV r v).ctrl = s.ctrl := rfl
@[simp] theorem State.setV_dim (r : RegNo) (v : Word) : (s.setV r v).dim = s.dim := rfl
@[simp] theorem State.setV_iter (r : RegNo) (v : Word) : (s.setV r v).iter = s.iter := rfl
@[simp] theorem State.setV_policy (r : RegNo) (v : Word) : (s.setV r v).policy = s.policy := rfl
@[simp] theorem State.setV_status (r : RegNo) (v : Word) : (s.setV r v).status = s.status := rfl
@[simp] theorem State.setV_pend (r : RegNo) (v : Word) : (s.setV r v).pend = s.pend := rfl
@[simp] theorem State.setV_pendV (r : RegNo) (v : Word) : (s.setV r v).pendV = s.pendV := rfl
@[simp] theorem State.setV_events (r : RegNo) (v : Word) : (s.setV r v).events = s.events := rfl
@[simp] theorem State.setV_responses (r : RegNo) (v : Word) : (s.setV r v).responses = s.responses := rfl
@[simp] theorem State.setV_draws (r : RegNo) (v : Word) : (s.setV r v).draws = s.draws := rfl
@[simp] theorem State.setV_N (r : RegNo) (v : Word) : (s.setV r v).N = s.N := rfl
@[simp] theorem State.setV_M (r : RegNo) (v : Word) (q : RegNo) : (s.setV r v).M q = s.M q := rfl
@[simp] theorem State.setV_loglen (r : RegNo) (v : Word) : (s.setV r v).loglen = s.loglen := rfl

end setV

section logAppend

@[simp] theorem State.logAppend_mats (es : List LogEntry) : (s.logAppend es).mats = s.mats := rfl
@[simp] theorem State.logAppend_vecs (es : List LogEntry) : (s.logAppend es).vecs = s.vecs := rfl
@[simp] theorem State.logAppend_log (es : List LogEntry) : (s.logAppend es).log = s.log ++ es := rfl
@[simp] theorem State.logAppend_ctrl (es : List LogEntry) : (s.logAppend es).ctrl = s.ctrl := rfl
@[simp] theorem State.logAppend_dim (es : List LogEntry) : (s.logAppend es).dim = s.dim := rfl
@[simp] theorem State.logAppend_iter (es : List LogEntry) : (s.logAppend es).iter = s.iter := rfl
@[simp] theorem State.logAppend_policy (es : List LogEntry) : (s.logAppend es).policy = s.policy := rfl
@[simp] theorem State.logAppend_status (es : List LogEntry) : (s.logAppend es).status = s.status := rfl
@[simp] theorem State.logAppend_pend (es : List LogEntry) : (s.logAppend es).pend = s.pend := rfl
@[simp] theorem State.logAppend_pendV (es : List LogEntry) : (s.logAppend es).pendV = s.pendV := rfl
@[simp] theorem State.logAppend_events (es : List LogEntry) : (s.logAppend es).events = s.events := rfl
@[simp] theorem State.logAppend_responses (es : List LogEntry) : (s.logAppend es).responses = s.responses := rfl
@[simp] theorem State.logAppend_draws (es : List LogEntry) : (s.logAppend es).draws = s.draws := rfl
@[simp] theorem State.logAppend_N (es : List LogEntry) : (s.logAppend es).N = s.N := rfl
@[simp] theorem State.logAppend_M (es : List LogEntry) (q : RegNo) : (s.logAppend es).M q = s.M q := rfl
@[simp] theorem State.logAppend_V (es : List LogEntry) (q : RegNo) : (s.logAppend es).V q = s.V q := rfl

end logAppend

section logClear

@[simp] theorem State.logClear_mats : (s.logClear).mats = s.mats := rfl
@[simp] theorem State.logClear_vecs : (s.logClear).vecs = s.vecs := rfl
@[simp] theorem State.logClear_log : (s.logClear).log = [] := rfl
@[simp] theorem State.logClear_ctrl : (s.logClear).ctrl = s.ctrl := rfl
@[simp] theorem State.logClear_dim : (s.logClear).dim = s.dim := rfl
@[simp] theorem State.logClear_iter : (s.logClear).iter = s.iter := rfl
@[simp] theorem State.logClear_policy : (s.logClear).policy = s.policy := rfl
@[simp] theorem State.logClear_status : (s.logClear).status = s.status := rfl
@[simp] theorem State.logClear_pend : (s.logClear).pend = s.pend := rfl
@[simp] theorem State.logClear_pendV : (s.logClear).pendV = s.pendV := rfl
@[simp] theorem State.logClear_events : (s.logClear).events = s.events := rfl
@[simp] theorem State.logClear_responses : (s.logClear).responses = s.responses := rfl
@[simp] theorem State.logClear_draws : (s.logClear).draws = s.draws := rfl
@[simp] theorem State.logClear_N : (s.logClear).N = s.N := rfl
@[simp] theorem State.logClear_M (q : RegNo) : (s.logClear).M q = s.M q := rfl
@[simp] theorem State.logClear_V (q : RegNo) : (s.logClear).V q = s.V q := rfl

end logClear

section setDraws

@[simp] theorem State.setDraws_mats (d : Draws) : (s.setDraws d).mats = s.mats := rfl
@[simp] theorem State.setDraws_vecs (d : Draws) : (s.setDraws d).vecs = s.vecs := rfl
@[simp] theorem State.setDraws_log (d : Draws) : (s.setDraws d).log = s.log := rfl
@[simp] theorem State.setDraws_ctrl (d : Draws) : (s.setDraws d).ctrl = s.ctrl := rfl
@[simp] theorem State.setDraws_dim (d : Draws) : (s.setDraws d).dim = s.dim := rfl
@[simp] theorem State.setDraws_iter (d : Draws) : (s.setDraws d).iter = s.iter := rfl
@[simp] theorem State.setDraws_policy (d : Draws) : (s.setDraws d).policy = s.policy := rfl
@[simp] theorem State.setDraws_status (d : Draws) : (s.setDraws d).status = s.status := rfl
@[simp] theorem State.setDraws_pend (d : Draws) : (s.setDraws d).pend = s.pend := rfl
@[simp] theorem State.setDraws_pendV (d : Draws) : (s.setDraws d).pendV = s.pendV := rfl
@[simp] theorem State.setDraws_events (d : Draws) : (s.setDraws d).events = s.events := rfl
@[simp] theorem State.setDraws_responses (d : Draws) : (s.setDraws d).responses = s.responses := rfl
@[simp] theorem State.setDraws_draws (d : Draws) : (s.setDraws d).draws = d := rfl
@[simp] theorem State.setDraws_N (d : Draws) : (s.setDraws d).N = s.N := rfl
@[simp] theorem State.setDraws_M (d : Draws) (q : RegNo) : (s.setDraws d).M q = s.M q := rfl
@[simp] theorem State.setDraws_V (d : Draws) (q : RegNo) : (s.setDraws d).V q = s.V q := rfl
@[simp] theorem State.setDraws_loglen (d : Draws) : (s.setDraws d).loglen = s.loglen := rfl

end setDraws

section answer

@[simp] theorem State.answer_mats (r : Reply) : (s.answer r).mats = s.mats := rfl
@[simp] theorem State.answer_vecs (r : Reply) : (s.answer r).vecs = s.vecs := rfl
@[simp] theorem State.answer_log (r : Reply) : (s.answer r).log = s.log := rfl
@[simp] theorem State.answer_ctrl (r : Reply) : (s.answer r).ctrl = s.ctrl := rfl
@[simp] theorem State.answer_dim (r : Reply) : (s.answer r).dim = s.dim := rfl
@[simp] theorem State.answer_iter (r : Reply) : (s.answer r).iter = s.iter := rfl
@[simp] theorem State.answer_policy (r : Reply) : (s.answer r).policy = s.policy := rfl
@[simp] theorem State.answer_status (r : Reply) : (s.answer r).status = s.status := rfl
@[simp] theorem State.answer_pend (r : Reply) : (s.answer r).pend = s.pend := rfl
@[simp] theorem State.answer_pendV (r : Reply) : (s.answer r).pendV = s.pendV := rfl
@[simp] theorem State.answer_events (r : Reply) : (s.answer r).events = s.events := rfl
@[simp] theorem State.answer_responses (r : Reply) : (s.answer r).responses = r :: s.responses := rfl
@[simp] theorem State.answer_draws (r : Reply) : (s.answer r).draws = s.draws := rfl
@[simp] theorem State.answer_N (r : Reply) : (s.answer r).N = s.N := rfl
@[simp] theorem State.answer_M (r : Reply) (q : RegNo) : (s.answer r).M q = s.M q := rfl
@[simp] theorem State.answer_V (r : Reply) (q : RegNo) : (s.answer r).V q = s.V q := rfl
@[simp] theorem State.answer_loglen (r : Reply) : (s.answer r).loglen = s.loglen := rfl

end answer

section setEvents

@[simp] theorem State.setEvents_mats (es : List Event) : (s.setEvents es).mats = s.mats := rfl
@[simp] theorem State.setEvents_vecs (es : List Event) : (s.setEvents es).vecs = s.vecs := rfl
@[simp] theorem State.setEvents_log (es : List Event) : (s.setEvents es).log = s.log := rfl
@[simp] theorem State.setEvents_ctrl (es : List Event) : (s.setEvents es).ctrl = s.ctrl := rfl
@[simp] theorem State.setEvents_dim (es : List Event) : (s.setEvents es).dim = s.dim := rfl
@[simp] theorem State.setEvents_iter (es : List Event) : (s.setEvents es).iter = s.iter := rfl
@[simp] theorem State.setEvents_policy (es : List Event) : (s.setEvents es).policy = s.policy := rfl
@[simp] theorem State.setEvents_status (es : List Event) : (s.setEvents es).status = s.status := rfl
@[simp] theorem State.setEvents_pend (es : List Event) : (s.setEvents es).pend = s.pend := rfl
@[simp] theorem State.setEvents_pendV (es : List Event) : (s.setEvents es).pendV = s.pendV := rfl
@[simp] theorem State.setEvents_events (es : List Event) : (s.setEvents es).events = es := rfl
@[simp] theorem State.setEvents_responses (es : List Event) : (s.setEvents es).responses = s.responses := rfl
@[simp] theorem State.setEvents_draws (es : List Event) : (s.setEvents es).draws = s.draws := rfl
@[simp] theorem State.setEvents_N (es : List Event) : (s.setEvents es).N = s.N := rfl
@[simp] theorem State.setEvents_M (es : List Event) (q : RegNo) : (s.setEvents es).M q = s.M q := rfl
@[simp] theorem State.setEvents_V (es : List Event) (q : RegNo) : (s.setEvents es).V q = s.V q := rfl
@[simp] theorem State.setEvents_loglen (es : List Event) : (s.setEvents es).loglen = s.loglen := rfl

end setEvents

section setEq

@[simp] theorem State.setEq_mats (b : Bool) : (s.setEq b).mats = s.mats := rfl
@[simp] theorem State.setEq_vecs (b : Bool) : (s.setEq b).vecs = s.vecs := rfl
@[simp] theorem State.setEq_log (b : Bool) : (s.setEq b).log = s.log := rfl
@[simp] theorem State.setEq_ctrl (b : Bool) : (s.setEq b).ctrl = s.ctrl := rfl
@[simp] theorem State.setEq_dim (b : Bool) : (s.setEq b).dim = s.dim := rfl
@[simp] theorem State.setEq_iter (b : Bool) : (s.setEq b).iter = s.iter := rfl
@[simp] theorem State.setEq_policy (b : Bool) : (s.setEq b).policy = s.policy := rfl
@[simp] theorem State.setEq_busy (b : Bool) : (s.setEq b).status.busy = s.status.busy := rfl
@[simp] theorem State.setEq_done (b : Bool) : (s.setEq b).status.done = s.status.done := rfl
@[simp] theorem State.setEq_err (b : Bool) : (s.setEq b).status.err = s.status.err := rfl
@[simp] theorem State.setEq_eq (b : Bool) : (s.setEq b).status.eq = b := rfl
@[simp] theorem State.setEq_haz (b : Bool) : (s.setEq b).status.haz = s.status.haz := rfl
@[simp] theorem State.setEq_errcode (b : Bool) : (s.setEq b).status.errcode = s.status.errcode := rfl
@[simp] theorem State.setEq_pend (b : Bool) : (s.setEq b).pend = s.pend := rfl
@[simp] theorem State.setEq_pendV (b : Bool) : (s.setEq b).pendV = s.pendV := rfl
@[simp] theorem State.setEq_events (b : Bool) : (s.setEq b).events = s.events := rfl
@[simp] theorem State.setEq_responses (b : Bool) : (s.setEq b).responses = s.responses := rfl
@[simp] theorem State.setEq_draws (b : Bool) : (s.setEq b).draws = s.draws := rfl
@[simp] theorem State.setEq_N (b : Bool) : (s.setEq b).N = s.N := rfl
@[simp] theorem State.setEq_M (b : Bool) (q : RegNo) : (s.setEq b).M q = s.M q := rfl
@[simp] theorem State.setEq_V (b : Bool) (q : RegNo) : (s.setEq b).V q = s.V q := rfl
@[simp] theorem State.setEq_loglen (b : Bool) : (s.setEq b).loglen = s.loglen := rfl

end setEq

section setHaz

@[simp] theorem State.setHaz_mats : (s.setHaz).mats = s.mats := rfl
@[simp] theorem State.setHaz_vecs : (s.setHaz).vecs = s.vecs := rfl
@[simp] theorem State.setHaz_log : (s.setHaz).log = s.log := rfl
@[simp] theorem State.setHaz_ctrl : (s.setHaz).ctrl = s.ctrl := rfl
@[simp] theorem State.setHaz_dim : (s.setHaz).dim = s.dim := rfl
@[simp] theorem State.setHaz_iter : (s.setHaz).iter = s.iter := rfl
@[simp] theorem State.setHaz_policy : (s.setHaz).policy = s.policy := rfl
@[simp] theorem State.setHaz_busy : (s.setHaz).status.busy = s.status.busy := rfl
@[simp] theorem State.setHaz_done : (s.setHaz).status.done = s.status.done := rfl
@[simp] theorem State.setHaz_err : (s.setHaz).status.err = s.status.err := rfl
@[simp] theorem State.setHaz_eq : (s.setHaz).status.eq = s.status.eq := rfl
@[simp] theorem State.setHaz_haz : (s.setHaz).status.haz = true := rfl
@[simp] theorem State.setHaz_errcode : (s.setHaz).status.errcode = s.status.errcode := rfl
@[simp] theorem State.setHaz_pend : (s.setHaz).pend = s.pend := rfl
@[simp] theorem State.setHaz_pendV : (s.setHaz).pendV = s.pendV := rfl
@[simp] theorem State.setHaz_events : (s.setHaz).events = s.events := rfl
@[simp] theorem State.setHaz_responses : (s.setHaz).responses = s.responses := rfl
@[simp] theorem State.setHaz_draws : (s.setHaz).draws = s.draws := rfl
@[simp] theorem State.setHaz_N : (s.setHaz).N = s.N := rfl
@[simp] theorem State.setHaz_M (q : RegNo) : (s.setHaz).M q = s.M q := rfl
@[simp] theorem State.setHaz_V (q : RegNo) : (s.setHaz).V q = s.V q := rfl
@[simp] theorem State.setHaz_loglen : (s.setHaz).loglen = s.loglen := rfl

end setHaz

section finish

@[simp] theorem State.finish_mats (c : ErrCode) : (s.finish c).mats = s.mats := rfl
@[simp] theorem State.finish_vecs (c : ErrCode) : (s.finish c).vecs = s.vecs := rfl
@[simp] theorem State.finish_log (c : ErrCode) : (s.finish c).log = s.log := rfl
@[simp] theorem State.finish_ctrl (c : ErrCode) : (s.finish c).ctrl = s.ctrl := rfl
@[simp] theorem State.finish_dim (c : ErrCode) : (s.finish c).dim = s.dim := rfl
@[simp] theorem State.finish_iter (c : ErrCode) : (s.finish c).iter = s.iter := rfl
@[simp] theorem State.finish_policy (c : ErrCode) : (s.finish c).policy = s.policy := rfl
@[simp] theorem State.finish_busy (c : ErrCode) : (s.finish c).status.busy = false := rfl
@[simp] theorem State.finish_done (c : ErrCode) : (s.finish c).status.done = true := rfl
@[simp] theorem State.finish_err (c : ErrCode) : (s.finish c).status.err = (s.status.err || decide (c ≠ .none)) := rfl
@[simp] theorem State.finish_eq (c : ErrCode) : (s.finish c).status.eq = s.status.eq := rfl
@[simp] theorem State.finish_haz (c : ErrCode) : (s.finish c).status.haz = s.status.haz := rfl
@[simp] theorem State.finish_errcode (c : ErrCode) : (s.finish c).status.errcode = c := rfl
@[simp] theorem State.finish_pend (c : ErrCode) : (s.finish c).pend = s.pend := rfl
@[simp] theorem State.finish_pendV (c : ErrCode) : (s.finish c).pendV = false := rfl
@[simp] theorem State.finish_events (c : ErrCode) : (s.finish c).events = s.events := rfl
@[simp] theorem State.finish_responses (c : ErrCode) : (s.finish c).responses = s.responses := rfl
@[simp] theorem State.finish_draws (c : ErrCode) : (s.finish c).draws = s.draws := rfl
@[simp] theorem State.finish_N (c : ErrCode) : (s.finish c).N = s.N := rfl
@[simp] theorem State.finish_M (c : ErrCode) (q : RegNo) : (s.finish c).M q = s.M q := rfl
@[simp] theorem State.finish_V (c : ErrCode) (q : RegNo) : (s.finish c).V q = s.V q := rfl
@[simp] theorem State.finish_loglen (c : ErrCode) : (s.finish c).loglen = s.loglen := rfl

end finish

section accept

@[simp] theorem State.accept_mats (d : Word) : (s.accept d).mats = s.mats := rfl
@[simp] theorem State.accept_vecs (d : Word) : (s.accept d).vecs = s.vecs := rfl
@[simp] theorem State.accept_log (d : Word) : (s.accept d).log = s.log := rfl
@[simp] theorem State.accept_ctrl (d : Word) : (s.accept d).ctrl = s.ctrl := rfl
@[simp] theorem State.accept_dim (d : Word) : (s.accept d).dim = s.dim := rfl
@[simp] theorem State.accept_iter (d : Word) : (s.accept d).iter = s.iter := rfl
@[simp] theorem State.accept_policy (d : Word) : (s.accept d).policy = s.policy := rfl
@[simp] theorem State.accept_busy (d : Word) : (s.accept d).status.busy = true := rfl
@[simp] theorem State.accept_done (d : Word) : (s.accept d).status.done = false := rfl
@[simp] theorem State.accept_err (d : Word) : (s.accept d).status.err = false := rfl
@[simp] theorem State.accept_eq (d : Word) : (s.accept d).status.eq = s.status.eq := rfl
@[simp] theorem State.accept_haz (d : Word) : (s.accept d).status.haz = s.status.haz := rfl
@[simp] theorem State.accept_errcode (d : Word) : (s.accept d).status.errcode = .none := rfl
@[simp] theorem State.accept_pend (d : Word) : (s.accept d).pend = d := rfl
@[simp] theorem State.accept_pendV (d : Word) : (s.accept d).pendV = true := rfl
@[simp] theorem State.accept_events (d : Word) : (s.accept d).events = s.events := rfl
@[simp] theorem State.accept_responses (d : Word) : (s.accept d).responses = s.responses := rfl
@[simp] theorem State.accept_draws (d : Word) : (s.accept d).draws = s.draws := rfl
@[simp] theorem State.accept_N (d : Word) : (s.accept d).N = s.N := rfl
@[simp] theorem State.accept_M (d : Word) (q : RegNo) : (s.accept d).M q = s.M q := rfl
@[simp] theorem State.accept_V (d : Word) (q : RegNo) : (s.accept d).V q = s.V q := rfl
@[simp] theorem State.accept_loglen (d : Word) : (s.accept d).loglen = s.loglen := rfl

end accept

section newRun

@[simp] theorem State.newRun_mats (d : BitVec 6) : (s.newRun d).mats = Vector.replicate 8 Mat.zero := rfl
@[simp] theorem State.newRun_vecs (d : BitVec 6) : (s.newRun d).vecs = Vector.replicate 8 0 := rfl
@[simp] theorem State.newRun_log (d : BitVec 6) : (s.newRun d).log = [] := rfl
@[simp] theorem State.newRun_ctrl (d : BitVec 6) : (s.newRun d).ctrl = s.ctrl := rfl
@[simp] theorem State.newRun_dim (d : BitVec 6) : (s.newRun d).dim = d := rfl
@[simp] theorem State.newRun_iter (d : BitVec 6) : (s.newRun d).iter = s.iter := rfl
@[simp] theorem State.newRun_policy (d : BitVec 6) : (s.newRun d).policy = s.policy := rfl
@[simp] theorem State.newRun_busy (d : BitVec 6) : (s.newRun d).status.busy = s.status.busy := rfl
@[simp] theorem State.newRun_done (d : BitVec 6) : (s.newRun d).status.done = s.status.done := rfl
@[simp] theorem State.newRun_err (d : BitVec 6) : (s.newRun d).status.err = s.status.err := rfl
@[simp] theorem State.newRun_eq (d : BitVec 6) : (s.newRun d).status.eq = false := rfl
@[simp] theorem State.newRun_haz (d : BitVec 6) : (s.newRun d).status.haz = s.status.haz := rfl
@[simp] theorem State.newRun_errcode (d : BitVec 6) : (s.newRun d).status.errcode = s.status.errcode := rfl
@[simp] theorem State.newRun_pend (d : BitVec 6) : (s.newRun d).pend = s.pend := rfl
@[simp] theorem State.newRun_pendV (d : BitVec 6) : (s.newRun d).pendV = s.pendV := rfl
@[simp] theorem State.newRun_events (d : BitVec 6) : (s.newRun d).events = s.events := rfl
@[simp] theorem State.newRun_responses (d : BitVec 6) : (s.newRun d).responses = s.responses := rfl
@[simp] theorem State.newRun_draws (d : BitVec 6) : (s.newRun d).draws = s.draws := rfl
@[simp] theorem State.newRun_N (d : BitVec 6) : (s.newRun d).N = d.toNat := rfl

end newRun

/-- A matrix register reads what was written to it. -/
@[simp] theorem State.setM_M_self (r : RegNo) (X : Mat) : (s.setM r X).M r = X := by
  simp [State.M]

/-- Writing one matrix register leaves the others alone. -/
theorem State.setM_M_ne (X : Mat) {r q : RegNo} (h : q ≠ r) : (s.setM r X).M q = s.M q := by
  have : r.val ≠ q.val := fun e => h (Fin.ext e.symm)
  simp [State.M, Vector.getElem_set_ne, this]

/-- A vector register reads what was written to it. -/
@[simp] theorem State.setV_V_self (r : RegNo) (v : Word) : (s.setV r v).V r = v := by
  simp [State.V]

/-- Writing one vector register leaves the others alone. -/
theorem State.setV_V_ne (v : Word) {r q : RegNo} (h : q ≠ r) : (s.setV r v).V q = s.V q := by
  have : r.val ≠ q.val := fun e => h (Fin.ext e.symm)
  simp [State.V, Vector.getElem_set_ne, this]

/-- After a new run every matrix register is zero (R30). -/
@[simp] theorem State.newRun_M (d : BitVec 6) (q : RegNo) : (s.newRun d).M q = Mat.zero := by
  simp [State.M]

/-- After a new run every vector register is zero (R30). -/
@[simp] theorem State.newRun_V (d : BitVec 6) (q : RegNo) : (s.newRun d).V q = 0 := by
  simp [State.V]

/-- LOGLEN advances by the entries appended (R150). -/
@[simp] theorem State.logAppend_loglen (es : List LogEntry) :
    (s.logAppend es).loglen = s.loglen + es.length := by
  simp [State.loglen]

/-- LOGCLR leaves no entry (R160). -/
@[simp] theorem State.logClear_loglen : s.logClear.loglen = 0 := rfl

/-- The log of a new run is empty (R30). -/
@[simp] theorem State.newRun_loglen (d : BitVec 6) : (s.newRun d).loglen = 0 := rfl

/-- Reset keeps only the model's own records of the outside world (R230). -/
theorem State.resetEvent_eq :
    s.resetEvent = { State.reset with events := s.events, responses := s.responses, draws := s.draws } := rfl

@[simp] theorem State.resetEvent_events : s.resetEvent.events = s.events := rfl
@[simp] theorem State.resetEvent_responses : s.resetEvent.responses = s.responses := rfl
@[simp] theorem State.resetEvent_draws : s.resetEvent.draws = s.draws := rfl
@[simp] theorem State.resetEvent_pendV : s.resetEvent.pendV = false := rfl
@[simp] theorem State.resetEvent_log : s.resetEvent.log = [] := rfl
@[simp] theorem State.resetEvent_status : s.resetEvent.status = Status.zero := rfl
@[simp] theorem State.resetEvent_N : s.resetEvent.N = 21 := rfl

/-- After reset every matrix register is zero (R20, R40). -/
@[simp] theorem State.resetEvent_M (q : RegNo) : s.resetEvent.M q = Mat.zero := by
  simp [State.M, State.resetEvent, State.reset]

/-- After reset every vector register is zero (R21, R40). -/
@[simp] theorem State.resetEvent_V (q : RegNo) : s.resetEvent.V q = 0 := by
  simp [State.V, State.resetEvent, State.reset]

end Sys2Proof.Machine
end

