-- ==== Sys2Proof/Laws/Ops.lean ====
section
/-! SUPPORT. What the shared endings of a command can do: success, an error, and the choice between them. -/

namespace Sys2Proof.Machine

/-- Success answers the state with the writes applied, completed with ERRCODE 0 (R206). -/
@[simp] theorem succeed_eq (s : State) : succeed s = .next (s.finish .none) := rfl

/-- An error answers the state completed with its code (R206). -/
@[simp] theorem fail_eq (c : ErrCode) (s : State) : fail c s = .next (s.finish c) := rfl

/-- No check failed: the writes are applied (R206). -/
@[simp] theorem unlessError_none (s w : State) : unlessError .none s w = .next (w.finish .none) := rfl

/-- A check failed: nothing but the completion (R203, R206). -/
theorem unlessError_error {c : ErrCode} (h : c ≠ .none) (s w : State) :
    unlessError c s w = .next (s.finish c) := by
  cases c <;> first | exact absurd rfl h | rfl

/-- Everything `unlessError` can do. -/
theorem unlessError_cases (c : ErrCode) (s w : State) :
    (c = .none ∧ unlessError c s w = .next (w.finish .none)) ∨
    (c ≠ .none ∧ unlessError c s w = .next (s.finish c)) := by
  by_cases h : c = .none
  · exact .inl ⟨h, by rw [h]; rfl⟩
  · exact .inr ⟨h, unlessError_error h s w⟩

/-- `finish` completes, whatever was written before it, provided ERR and HAZ were not (R206). -/
theorem completed_finish {c : ErrCode} {s w : State} (he : w.status.err = s.status.err)
    (hh : w.status.haz = s.status.haz) : Completed c s (w.finish c) where
  busy := rfl
  done := rfl
  errcode := rfl
  errKept := by rintro rfl; simp [he]
  errSet := by intro h; simp [h]
  haz := hh
  pendV := rfl

/-- An error leaves nothing but its completion (R203). -/
theorem failed_finish (c : ErrCode) (s : State) : Failed c s (s.finish c) where
  completed := completed_finish rfl rfl
  data := ⟨rfl, rfl, rfl, rfl, rfl⟩
  untouched := ⟨rfl, rfl, rfl, rfl, rfl, rfl, rfl⟩

/-- The index checks pass exactly on a valid pair (R130). -/
theorem indexCheck_none {N m n : Nat} : indexCheck N m n = .none ↔ m < N ∧ n < N ∧ m ≠ n := by
  unfold indexCheck
  split
  · simp; omega
  · split <;> simp_all

/-- An index out of range is reported first (R201). -/
theorem indexCheck_range {N m n : Nat} (h : N ≤ m ∨ N ≤ n) : indexCheck N m n = .indexRange := if_pos h

/-- Equal indices in range (R201). -/
theorem indexCheck_equal {N m n : Nat} (hm : m < N) (h : m = n) : indexCheck N m n = .indexEqual := by
  subst h
  rw [indexCheck, if_neg (by omega), if_pos rfl]

end Sys2Proof.Machine
end

