-- ==== Sys2Proof/Laws/Bus.lean ====
section
/-! SUPPORT. What a bus transaction can do to the machine, said once (R52 to R58, R205). -/

namespace Sys2Proof.Machine

/-- The offset of a target is the number R54 gives. -/
theorem Target.address_matrixRow_toNat (r : RegNo) (i : Fin 32) :
    (Target.matrixRow r i).address.toNat = 0x1000 + 0x80 * r.val + 4 * i.val := by
  simp only [Target.address, BitVec.toNat_ofNat]; omega

theorem Target.address_vector_toNat (r : RegNo) : (Target.vector r).address.toNat = 0x2000 + 4 * r.val := by
  simp only [Target.address, BitVec.toNat_ofNat]; omega

theorem Target.address_logEntry_toNat (i : Fin 1024) : (Target.logEntry i).address.toNat = 0x3000 + 4 * i.val := by
  simp only [Target.address, BitVec.toNat_ofNat]; omega

/-- A 32-bit transaction at the offset of a target reaches it (R54). -/
theorem route_address (t : Target) : route t.address .word = some t := by
  cases t with
  | matrixRow r i =>
    simp only [route, target, Target.address_matrixRow_toNat]
    rw [if_pos (by omega), dif_pos (by omega)]
    congr <;> omega
  | vector r =>
    simp only [route, target, Target.address_vector_toNat]
    rw [if_pos (by omega), dif_neg (by omega), dif_pos (by omega)]
    congr; omega
  | logEntry i =>
    simp only [route, target, Target.address_logEntry_toNat]
    rw [if_pos (by omega), dif_neg (by omega), dif_neg (by omega), dif_pos (by omega)]
    congr; omega
  | _ => rfl

/-- A read at the offset of a target. -/
theorem memRead_address (s : State) (t : Target) :
    memRead s t.address .word = (.read .okay (readTarget s t).1, (readTarget s t).2) := by
  rw [memRead, route_address]

/-- A write at the offset of a target. -/
theorem memWrite_address (s : State) (t : Target) (d : Word) :
    memWrite s t.address .word d = (.write .okay, writeTarget s d t) := by
  rw [memWrite, route_address]

/-- Everything a read can do to the state: nothing, or HAZ when it meets a window while BUSY (R55 to R58). -/
theorem readTarget_state (s : State) (t : Target) :
    (readTarget s t).2 = if t.isWindow && s.status.busy then s.setHaz else s := by
  unfold readTarget windowRead
  cases t.isWindow <;> cases s.status.busy <;> rfl

/-- A guarded write is blocked exactly while BUSY (R30 to R32, R55, R56). -/
theorem guardedWrite_eq (s w : State) : guardedWrite s w = if s.status.busy then s.setHaz else w := rfl

/-- Everything a write can do while BUSY (R57, R58, R205): CTRL and STATUS are written, a read-only target
ignores it, and any other write sets HAZ. -/
theorem writeTarget_busy {s : State} (h : s.status.busy = true) (d : Word) (t : Target) :
    writeTarget s d t = s ∨ writeTarget s d t = s.setHaz ∨
    writeTarget s d t = { s with ctrl := Ctrl.ofWord d } ∨
    writeTarget s d t = { s with status := s.status.clearedBy d } := by
  cases t <;> simp [writeTarget, guardedWrite, State.presentCommand, h]

/-- Everything a read transaction can do. -/
theorem memRead_state (s : State) (a : Addr) (size : AccessSize) :
    (memRead s a size).2 = s ∨ ((memRead s a size).2 = s.setHaz ∧ s.status.busy = true) := by
  unfold memRead
  split
  · rename_i t _
    simp only [readTarget_state]
    cases t.isWindow <;> cases s.status.busy <;> simp
  · exact .inl rfl

/-- Everything a write transaction can do: nothing, or the write of a mapped offset. -/
theorem memWrite_state (s : State) (a : Addr) (size : AccessSize) (d : Word) :
    (memWrite s a size d).2 = s ∨ ∃ t, route a size = some t ∧ (memWrite s a size d).2 = writeTarget s d t := by
  unfold memWrite
  split
  · rename_i t h; exact .inr ⟨t, h, rfl⟩
  · exact .inl rfl

end Sys2Proof.Machine
end

