-- ==== Sys2Proof/Laws/Matrix.lean ====
section
/-! SUPPORT. What each matrix function of Machine/Matrix.lean does, row by row and cell by cell. Claims about
the machine are cited from these; the functions are unfolded here only. -/

namespace Sys2Proof.Machine

/-- A row past the last is 0. -/
theorem Mat.row_of_ge (A : Mat) {i : Nat} (h : 32 ≤ i) : A.row i = 0 := by
  simp [Mat.row, Vector.getElem?_eq_none h]

/-- Row i of a matrix given by its rows. -/
@[simp] theorem Mat.row_ofRows (f : Nat → Word) (i : Nat) :
    (Mat.ofRows f).row i = if i < 32 then f i else 0 := by
  by_cases h : i < 32
  · simp [Mat.row, Mat.ofRows, h]
  · simp [Mat.row_of_ge _ (by omega : 32 ≤ i), h]

/-- Every row of the zero matrix is 0. -/
@[simp] theorem Mat.row_zero (i : Nat) : Mat.zero.row i = 0 := by
  by_cases h : i < 32
  · simp [Mat.row, Mat.zero, h]
  · simp [Mat.row_of_ge _ (by omega : 32 ≤ i)]

/-- Every cell of the zero matrix is 0. -/
@[simp] theorem Mat.cell_zero (i j : Nat) : Mat.zero.cell i j = false := by simp [Mat.cell]

/-- A cell past the last column is 0. -/
theorem Mat.cell_of_ge_col (A : Mat) (i : Nat) {j : Nat} (h : 32 ≤ j) : A.cell i j = false :=
  BitVec.getLsbD_of_ge _ _ h

/-- A cell past the last row is 0. -/
theorem Mat.cell_of_ge_row (A : Mat) {i : Nat} (j : Nat) (h : 32 ≤ i) : A.cell i j = false := by
  simp [Mat.cell, A.row_of_ge h]

/-- Row k after one row is replaced. -/
theorem Mat.row_setRow (A : Mat) (i : Fin 32) (w : Word) (k : Nat) :
    (A.setRow i w).row k = if k = i.val then w else A.row k := by
  by_cases hk : k < 32
  · by_cases h : k = i.val
    · subst h; simp [Mat.row, Mat.setRow]
    · have h' : i.val ≠ k := fun e => h e.symm
      simp [Mat.row, Mat.setRow, h, Vector.getElem?_set_ne, h']
  · have : k ≠ i.val := by omega
    simp [Mat.row_of_ge _ (by omega : 32 ≤ k), this]

/-- Matrices with the same 32 rows are the same. -/
theorem Mat.ext_row {A B : Mat} (h : ∀ i, i < 32 → A.row i = B.row i) : A = B := by
  apply Vector.ext
  intro i hi
  have := h i hi
  simpa [Mat.row, hi] using this

/-- Matrices with the same 32×32 cells are the same. -/
theorem Mat.ext_cell {A B : Mat} (h : ∀ i j, i < 32 → j < 32 → A.cell i j = B.cell i j) : A = B :=
  Mat.ext_row fun i hi => word_ext fun j hj => h i j hi hj

/-- The sum over GF(2) of the products A[i][k]·B[k][j], for k < `len` (R106, cell form). -/
def xorProducts (A B : Mat) (i j : Nat) : Nat → Bool
  | 0 => false
  | len + 1 => xorProducts A B i j len ^^ (A.cell i len && B.cell len j)

/-- Bit j of the XOR of the rows a row word selects. -/
theorem getLsbD_xorSelected (A B : Mat) (i j len : Nat) :
    (xorSelected B (A.row i) len).getLsbD j = xorProducts A B i j len := by
  induction len with
  | zero => simp [xorSelected, xorProducts]
  | succ len ih =>
    rw [xorSelected, xorProducts, ← ih]
    cases h : A.cell i len <;> rw [Mat.cell] at h <;> simp [h, Mat.cell]

/-- Row i of the product (R106). -/
theorem row_matMul (A B : Mat) (N i : Nat) :
    (matMul A B N).row i = if i < N ∧ i < 32 then xorSelected B (A.row i) N else 0 := by
  by_cases h : i < 32 <;> by_cases hN : i < N <;> simp [matMul, h, hN]

/-- Cell (i, j) of the product (R106). -/
theorem cell_matMul (A B : Mat) (N i j : Nat) :
    (matMul A B N).cell i j = (decide (i < N) && decide (i < 32) && xorProducts A B i j N) := by
  rw [Mat.cell, row_matMul]
  by_cases h : i < 32 <;> by_cases hN : i < N <;> simp [h, hN, getLsbD_xorSelected]

/-- The GF(2) sum of products is the integer sum reduced mod 2 (R113). -/
theorem xorProducts_toNat (A B : Mat) (i j len : Nat) :
    (xorProducts A B i j len).toNat =
      (∑ k ∈ Finset.range len, (A.cell i k).toNat * (B.cell k j).toNat) % 2 := by
  induction len with
  | zero => rfl
  | succ len ih =>
    rw [xorProducts, Finset.sum_range_succ, Nat.add_mod, ← ih]
    cases xorProducts A B i j len <;> cases A.cell i len <;> cases B.cell len j <;> rfl

/-- Row i of Swap(m, n) (R134). -/
theorem row_swapMat (N m n i : Nat) :
    (swapMat N m n).row i =
      if i < 32 ∧ i < N then (if i = m then oneBit n else if i = n then oneBit m else oneBit i) else 0 := by
  by_cases h : i < 32 <;> by_cases hN : i < N <;> simp [swapMat, h, hN]

/-- Row i of AddRow(m, n) (R135). -/
theorem row_addMat (N m n i : Nat) :
    (addMat N m n).row i =
      if i < 32 ∧ i < N then (if i = m then oneBit m ||| oneBit n else oneBit i) else 0 := by
  by_cases h : i < 32 <;> by_cases hN : i < N <;> simp [addMat, h, hN]

/-- Row i of the identity (R107). -/
theorem row_ident (N i : Nat) : (ident N).row i = if i < 32 ∧ i < N then oneBit i else 0 := by
  by_cases h : i < 32 <;> by_cases hN : i < N <;> simp [ident, h, hN]

/-- Cell (i, j) of the identity (R107). -/
theorem cell_ident (N i j : Nat) :
    (ident N).cell i j = (decide (i < 32) && decide (i < N) && decide (j = i)) := by
  rw [Mat.cell, row_ident]
  by_cases h : i < 32 ∧ i < N
  · rw [if_pos h, getLsbD_oneBit]
    by_cases hj : j = i
    · subst hj; simp [h.1, h.2]
    · simp [hj]
  · rw [if_neg h]
    by_cases h1 : i < 32 <;> by_cases h2 : i < N <;> simp_all

/-- Row i after a row exchange (R136). -/
theorem row_rowSwap (X : Mat) (m n i : Nat) :
    (rowSwap X m n).row i =
      if i < 32 then (if i = m then X.row n else if i = n then X.row m else X.row i) else 0 := by
  simp [rowSwap]

/-- Row i after a row addition (R136). -/
theorem row_rowAdd (X : Mat) (m n i : Nat) :
    (rowAdd X m n).row i = if i < 32 then (if i = m then X.row m ^^^ X.row n else X.row i) else 0 := by
  simp [rowAdd]

/-- Cell (i, j) after a column exchange (R137). -/
theorem cell_colSwap (X : Mat) (m n i j : Nat) :
    (colSwap X m n).cell i j =
      (decide (j < 32) && if j = m then X.cell i n else if j = n then X.cell i m else X.cell i j) := by
  by_cases h : i < 32
  · simp [Mat.cell, colSwap, swapBits, h]
  · simp [Mat.cell, colSwap, X.row_of_ge (by omega : 32 ≤ i), h]

/-- Cell (i, j) after a column addition (R137). -/
theorem cell_colAdd (X : Mat) (m n i j : Nat) :
    (colAdd X m n).cell i j =
      (decide (j < 32) && if j = n then X.cell i n ^^ X.cell i m else X.cell i j) := by
  by_cases h : i < 32
  · simp [Mat.cell, colAdd, addBit, h]
  · simp [Mat.cell, colAdd, X.row_of_ge (by omega : 32 ≤ i), h]

/-- `MatEq` compares the rows below N (R108). -/
theorem matEq_iff (A B : Mat) (N : Nat) : matEq A B N = true ↔ ∀ i, i < N → A.row i = B.row i := by
  simp [matEq]

/-- Element i of the matrix-vector product (R109). -/
theorem getLsbD_matVec (A : Mat) (v : Word) (N i : Nat) :
    (matVec A v N).getLsbD i = (decide (i < 32) && decide (i < N) && parity (A.row i &&& v)) := by
  rw [matVec, getLsbD_wordOfBits, Bool.and_self, Bool.and_assoc]

end Sys2Proof.Machine
end

