-- ==== Sys2Proof/Laws/Composer.lean ====
section
/-! SUPPORT. What the loop of COMPOSE does, said once (R153). -/

namespace Sys2Proof.Machine

/-- The loop records one entry per operation. -/
@[simp] theorem composeLoop_length (N : Nat) (mode : Mode) (k : Nat) (X : Mat) (d : Draws) :
    (composeLoop N mode k X d).entries.length = k := by
  induction k generalizing X d with
  | zero => rfl
  | succ k ih => simp [composeLoop, ih]

/-- The loop's matrix is the entries it records, applied in order. -/
theorem composeLoop_mat (N : Nat) (mode : Mode) (k : Nat) (X : Mat) (d : Draws) :
    (composeLoop N mode k X d).mat = applyAll N X (composeLoop N mode k X d).entries := by
  induction k generalizing X d with
  | zero => rfl
  | succ k ih => simp only [composeLoop, applyAll, List.foldl_cons]; exact ih _ _

/-- Every pair drawn is some pair of the source brought under the constraint (R10). -/
theorem drawPair_fst (N : Nat) (d : Draws) : ∃ p, (drawPair N d).1 = constrainPair N p := by
  unfold drawPair
  split
  · exact ⟨_, rfl⟩
  · exact ⟨_, rfl⟩

/-- Everything an entry of the loop can be: a constrained pair with the kind of some draw. -/
theorem composeLoop_entries (N : Nat) (mode : Mode) (k : Nat) (X : Mat) (d : Draws) :
    ∀ e ∈ (composeLoop N mode k X d).entries,
      ∃ p d', e = mkEntry (chooseKind mode d').1 (constrainPair N p).1 (constrainPair N p).2 := by
  induction k generalizing X d with
  | zero => intro e he; simp [composeLoop] at he
  | succ k ih =>
    intro e he
    simp only [composeLoop, List.mem_cons] at he
    rcases he with rfl | he
    · obtain ⟨p, hp⟩ := drawPair_fst N d
      exact ⟨p, (drawPair N d).2, by rw [hp]⟩
    · exact ih _ _ e he

/-- The draw inputs the loop leaves: each of the k operations takes a pair and, as the mode has it, a kind (R153, R154). -/
theorem composeLoop_draws (N : Nat) (mode : Mode) (k : Nat) (X : Mat) (d : Draws) :
    (composeLoop N mode k X d).draws =
      (fun d' => (chooseKind mode (drawPair N d').2).2)^[k] d := by
  induction k generalizing X d with
  | zero => rfl
  | succ k ih => simp only [composeLoop, ih, Function.iterate_succ_apply]

/-- The i-th entry of the loop is what is drawn at the inputs the i operations before it left (R153). -/
theorem composeLoop_getElem (N : Nat) (mode : Mode) (k : Nat) (X : Mat) (d : Draws) (i : Nat) (hi : i < k) :
    (composeLoop N mode k X d).entries[i]? =
      let d' := (fun d' => (chooseKind mode (drawPair N d').2).2)^[i] d
      some (mkEntry (chooseKind mode (drawPair N d').2).1 (drawPair N d').1.1 (drawPair N d').1.2) := by
  induction k generalizing X d i with
  | zero => exact absurd hi (Nat.not_lt_zero i)
  | succ k ih =>
    cases i with
    | zero => rfl
    | succ i =>
      simp only [composeLoop, List.getElem?_cons_succ, ih _ _ i (Nat.lt_of_succ_lt_succ hi),
        Function.iterate_succ_apply]

/-- A supplied pair that meets the constraint is the pair drawn (R10). -/
theorem drawPair_supplied {N : Nat} {d : Draws} {p : Nat × Nat} {ps : List (Nat × Nat)}
    (hd : d.pairInputs = p :: ps) (hp : pairValid N p = true) : drawPair N d = (p, { d with pairInputs := ps }) := by
  simp only [drawPair, hd, constrainPair, if_pos hp]

/-- The checks of COMPOSE pass exactly when it succeeds (R155). -/
theorem composeCheck_none {s : State} :
    composeCheck s = .none ↔ (2 ≤ s.N ∨ s.iter.toNat = 0) ∧ s.loglen + s.iter.toNat ≤ 1024 := by
  unfold composeCheck Config.logDepth
  split
  · simp; omega
  · split
    · simp; omega
    · simp; omega

/-- The checks of APPLY pass exactly when it succeeds (R152). -/
theorem applyCheck_none {s : State} {m n : Nat} :
    applyCheck s m n = .none ↔ (m < s.N ∧ n < s.N ∧ m ≠ n) ∧ s.loglen ≠ 1024 := by
  rw [← indexCheck_none (N := s.N)]
  unfold applyCheck Config.logDepth
  split
  · rename_i h; split <;> simp_all
  · rename_i h; simp_all

/-- An index error of APPLY is reported before a full log (R201). -/
theorem applyCheck_index {s : State} {m n : Nat} (h : indexCheck s.N m n ≠ .none) :
    applyCheck s m n = indexCheck s.N m n := by
  unfold applyCheck
  split
  · rename_i h'; exact absurd h' h
  · rfl

end Sys2Proof.Machine
end

