-- ==== Sys2Proof/Laws/Fields.lean ====
section
/-! SUPPORT. The fields of a command word (R81): a word is the sum of its fields, a word of fields has those
fields, and what a mask of zero says of a field. -/

namespace Sys2Proof

/-- One field off the low end of a shifted number. -/
theorem shifted_split (x lo width : Nat) :
    x / 2 ^ lo = x / 2 ^ (lo + width) * 2 ^ width + x / 2 ^ lo % 2 ^ width := by
  rw [Nat.pow_add, ← Nat.div_div_eq_div_mul]
  exact (Nat.div_add_mod' _ _).symm

/-- Every word is the sum of its nine fields at their places (R81, R85). -/
theorem word_eq_fields (w : Word) :
    w.toNat = w.op * 2 ^ 28 + w.rd.val * 2 ^ 25 + w.ra.val * 2 ^ 22 + w.rb.val * 2 ^ 19 + w.rc.val * 2 ^ 16 +
      w.rsv * 2 ^ 11 + w.k * 2 ^ 10 + w.m * 2 ^ 5 + w.n := by
  have hn : w.toNat / 2 ^ 0 = w.toNat / 2 ^ 5 * 2 ^ 5 + w.n := shifted_split w.toNat 0 5
  have hm : w.toNat / 2 ^ 5 = w.toNat / 2 ^ 10 * 2 ^ 5 + w.m := shifted_split w.toNat 5 5
  have hk : w.toNat / 2 ^ 10 = w.toNat / 2 ^ 11 * 2 ^ 1 + w.k := shifted_split w.toNat 10 1
  have hrsv : w.toNat / 2 ^ 11 = w.toNat / 2 ^ 16 * 2 ^ 5 + w.rsv := shifted_split w.toNat 11 5
  have hrc : w.toNat / 2 ^ 16 = w.toNat / 2 ^ 19 * 2 ^ 3 + w.rc.val := shifted_split w.toNat 16 3
  have hrb : w.toNat / 2 ^ 19 = w.toNat / 2 ^ 22 * 2 ^ 3 + w.rb.val := shifted_split w.toNat 19 3
  have hra : w.toNat / 2 ^ 22 = w.toNat / 2 ^ 25 * 2 ^ 3 + w.ra.val := shifted_split w.toNat 22 3
  have hrd : w.toNat / 2 ^ 25 = w.toNat / 2 ^ 28 * 2 ^ 3 + w.rd.val := shifted_split w.toNat 25 3
  have hop : w.op = w.toNat / 2 ^ 28 :=
    Nat.mod_eq_of_lt (Nat.div_lt_of_lt_mul (by have := w.isLt; omega))
  rw [Nat.pow_zero, Nat.div_one] at hn
  generalize w.toNat / 2 ^ 5 = q5 at *
  generalize w.toNat / 2 ^ 10 = q10 at *
  generalize w.toNat / 2 ^ 11 = q11 at *
  generalize w.toNat / 2 ^ 16 = q16 at *
  generalize w.toNat / 2 ^ 19 = q19 at *
  generalize w.toNat / 2 ^ 22 = q22 at *
  generalize w.toNat / 2 ^ 25 = q25 at *
  generalize w.toNat / 2 ^ 28 = q28 at *
  omega

/-- A word of fields has those fields, and rsv = 0 (R82, R85). -/
theorem fields_encodeFields {op rd ra rb rc k m n : Nat} (hop : op < 16) (hrd : rd < 8) (hra : ra < 8)
    (hrb : rb < 8) (hrc : rc < 8) (hk : k < 2) (hm : m < 32) (hn : n < 32) :
    (encodeFields op rd ra rb rc k m n).op = op ∧ (encodeFields op rd ra rb rc k m n).rd = ⟨rd, hrd⟩ ∧
    (encodeFields op rd ra rb rc k m n).ra = ⟨ra, hra⟩ ∧ (encodeFields op rd ra rb rc k m n).rb = ⟨rb, hrb⟩ ∧
    (encodeFields op rd ra rb rc k m n).rc = ⟨rc, hrc⟩ ∧ (encodeFields op rd ra rb rc k m n).rsv = 0 ∧
    (encodeFields op rd ra rb rc k m n).k = k ∧ (encodeFields op rd ra rb rc k m n).m = m ∧
    (encodeFields op rd ra rb rc k m n).n = n := by
  simp only [Word.op, Word.rd, Word.ra, Word.rb, Word.rc, Word.rsv, Word.k, Word.m, Word.n, Word.regField,
    Word.field, encodeFields, BitVec.toNat_ofNat, Fin.mk.injEq]
  omega

/-- A field is 0 exactly when each of its bits is. -/
theorem field_eq_zero_iff (w : Word) (lo width : Nat) :
    w.field lo width = 0 ↔ ∀ j, lo ≤ j → j < lo + width → w.getLsbD j = false := by
  constructor
  · intro h j h1 h2
    have hb : (w.toNat / 2 ^ lo % 2 ^ width).testBit (j - lo) = false := by
      rw [Word.field] at h; rw [h]; exact Nat.zero_testBit _
    rw [Nat.testBit_mod_two_pow, Nat.testBit_div_two_pow, decide_eq_true (by omega : j - lo < width),
      Bool.true_and, Nat.sub_add_cancel h1] at hb
    exact hb
  · intro h
    apply Nat.eq_of_testBit_eq
    intro i
    rw [Word.field, Nat.testBit_mod_two_pow, Nat.testBit_div_two_pow, Nat.zero_testBit]
    by_cases hi : i < width
    · rw [decide_eq_true hi, Bool.true_and]
      exact h (i + lo) (by omega) (by omega)
    · rw [decide_eq_false hi, Bool.false_and]

/-- Under a mask nothing is left exactly when every bit the mask has is 0 in the word. -/
theorem and_mask_eq_zero_iff (w mask : Word) :
    w &&& mask = 0 ↔ ∀ j, j < 32 → mask.getLsbD j = true → w.getLsbD j = false := by
  constructor
  · intro h j _ hm
    have := congrArg (fun v : Word => v.getLsbD j) h
    simpa [BitVec.getLsbD_and, hm] using this
  · intro h
    apply BitVec.eq_of_getLsbD_eq
    intro j hj
    rw [BitVec.getLsbD_and]
    cases hm : mask.getLsbD j
    · simp
    · rw [h j hj hm]; simp

/-- A mask made of whole fields leaves nothing exactly when each of those fields is 0: how a ZeroMask (R202) says
what the field table R83 says. Its premises are closed facts about the mask. -/
theorem and_mask_eq_zero_iff_fields (w mask : Word) (fields : List (Nat × Nat))
    (hin : ∀ p ∈ fields, ∀ j : Fin 32, p.1 ≤ j.val → j.val < p.1 + p.2 → mask.getLsbD j = true)
    (hout : ∀ j : Fin 32, mask.getLsbD j = true → ∃ p ∈ fields, p.1 ≤ j.val ∧ j.val < p.1 + p.2)
    (hfit : ∀ p ∈ fields, p.1 + p.2 ≤ 32) :
    w &&& mask = 0 ↔ ∀ p ∈ fields, w.field p.1 p.2 = 0 := by
  rw [and_mask_eq_zero_iff]
  constructor
  · intro h p hp
    rw [field_eq_zero_iff]
    intro j a b
    have := hfit p hp
    exact h j (by omega) (hin p hp ⟨j, by omega⟩ a b)
  · intro h j hj hm
    obtain ⟨p, hp, a, b⟩ := hout ⟨j, hj⟩ hm
    exact (field_eq_zero_iff ..).1 (h p hp) j a b

/-- A field whose bits the mask all has is read through the mask unchanged. -/
theorem field_and_mask {mask : Word} {lo width : Nat} (h : mask.field lo width = 2 ^ width - 1) (w : Word) :
    (w &&& mask).field lo width = w.field lo width := by
  apply Nat.eq_of_testBit_eq
  intro i
  have hm := congrArg (fun x => Nat.testBit x i) h
  simp only [Word.field, BitVec.toNat_and, Nat.testBit_mod_two_pow, Nat.testBit_div_two_pow, Nat.testBit_and,
    Nat.testBit_two_pow_sub_one] at hm ⊢
  cases hi : decide (i < width)
  · rfl
  · rw [hi, Bool.true_and] at hm
    rw [hm, Bool.and_true]

end Sys2Proof
end

