-- ==== Sys2Proof/Laws/PerInstr.lean ====
section
/-! SUPPORT. Facts about every command as syntax, one lemma per constructor. Family `Opcode`: the word of a
well-formed command has the command's opcode in its bits [31:28] (R81, R84, R85). -/

namespace Sys2Proof

/-- The opcode field of a word of fields that fit their places. -/
theorem op_encodeFields {op rd ra rb rc k m n : Nat} (hop : op < 16) (hrd : rd < 8) (hra : ra < 8) (hrb : rb < 8)
    (hrc : rc < 8) (hk : k < 2) (hm : m < 32) (hn : n < 32) :
    (encodeFields op rd ra rb rc k m n).op = op := by
  simp only [Word.op, Word.field, encodeFields, BitVec.toNat_ofNat]
  omega

/-- The opcode field of a reserved word. -/
theorem op_encodeReserved {op : Nat} (hop : op < 16) (p : BitVec 28) : (encodeReserved op p).op = op := by
  have := p.isLt
  simp only [Word.op, Word.field, encodeReserved, BitVec.toNat_ofNat]
  omega

/-- What `indicesFit` says. -/
theorem indicesFit_iff {m n : Nat} : indicesFit m n = true ↔ m < 32 ∧ n < 32 := by
  simp [indicesFit]

/-- The word of a well-formed command has its opcode in bits [31:28]. -/
def Laws.Opcode.Statement (i : Instr) : Prop := i.WellFormed → (encode i).op = i.opcode

theorem Laws.Opcode.nop : Laws.Opcode.Statement .nop := fun _ => by decide

theorem Laws.Opcode.ident (rd : RegNo) : Laws.Opcode.Statement (.ident rd) := fun _ =>
  op_encodeFields (by omega) rd.isLt (by omega) (by omega) (by omega) (by omega) (by omega) (by omega)

theorem Laws.Opcode.mov (rd ra : RegNo) : Laws.Opcode.Statement (.mov rd ra) := fun _ =>
  op_encodeFields (by omega) rd.isLt ra.isLt (by omega) (by omega) (by omega) (by omega) (by omega)

theorem Laws.Opcode.mul (rd ra rb : RegNo) : Laws.Opcode.Statement (.mul rd ra rb) := fun _ =>
  op_encodeFields (by omega) rd.isLt ra.isLt rb.isLt (by omega) (by omega) (by omega) (by omega)

theorem Laws.Opcode.mvmul (rd ra rb : RegNo) : Laws.Opcode.Statement (.mvmul rd ra rb) := fun _ =>
  op_encodeFields (by omega) rd.isLt ra.isLt rb.isLt (by omega) (by omega) (by omega) (by omega)

theorem Laws.Opcode.cmpeq (ra rb : RegNo) : Laws.Opcode.Statement (.cmpeq ra rb) := fun _ =>
  op_encodeFields (by omega) (by omega) ra.isLt rb.isLt (by omega) (by omega) (by omega) (by omega)

theorem Laws.Opcode.swapgen (rd : RegNo) (m n : Nat) : Laws.Opcode.Statement (.swapgen rd m n) := fun h =>
  op_encodeFields (by omega) rd.isLt (by omega) (by omega) (by omega) (by omega)
    (indicesFit_iff.1 h).1 (indicesFit_iff.1 h).2

theorem Laws.Opcode.addgen (rd : RegNo) (m n : Nat) : Laws.Opcode.Statement (.addgen rd m n) := fun h =>
  op_encodeFields (by omega) rd.isLt (by omega) (by omega) (by omega) (by omega)
    (indicesFit_iff.1 h).1 (indicesFit_iff.1 h).2

theorem Laws.Opcode.applyAdd (rd : RegNo) (m n : Nat) : Laws.Opcode.Statement (.applyAdd rd m n) := fun h =>
  op_encodeFields (by omega) rd.isLt (by omega) (by omega) (by omega) (by omega)
    (indicesFit_iff.1 h).1 (indicesFit_iff.1 h).2

theorem Laws.Opcode.applySwap (rd : RegNo) (m n : Nat) : Laws.Opcode.Statement (.applySwap rd m n) := fun h =>
  op_encodeFields (by omega) rd.isLt (by omega) (by omega) (by omega) (by omega)
    (indicesFit_iff.1 h).1 (indicesFit_iff.1 h).2

theorem Laws.Opcode.compose (rd : RegNo) : Laws.Opcode.Statement (.compose rd) := fun _ =>
  op_encodeFields (by omega) rd.isLt (by omega) (by omega) (by omega) (by omega) (by omega) (by omega)

theorem Laws.Opcode.logclr : Laws.Opcode.Statement .logclr := fun _ => by decide

theorem Laws.Opcode.keyderive (rd : RegNo) : Laws.Opcode.Statement (.keyderive rd) := fun _ =>
  op_encodeFields (by omega) rd.isLt (by omega) (by omega) (by omega) (by omega) (by omega) (by omega)

theorem Laws.Opcode.verify (rd ra rb rc : RegNo) : Laws.Opcode.Statement (.verify rd ra rb rc) := fun _ =>
  op_encodeFields (by omega) rd.isLt ra.isLt rb.isLt rc.isLt (by omega) (by omega) (by omega)

theorem Laws.Opcode.reservedD (payload : BitVec 28) : Laws.Opcode.Statement (.reservedD payload) := fun _ =>
  op_encodeReserved (by omega) payload

theorem Laws.Opcode.reservedE (payload : BitVec 28) : Laws.Opcode.Statement (.reservedE payload) := fun _ =>
  op_encodeReserved (by omega) payload

theorem Laws.Opcode.reservedF (payload : BitVec 28) : Laws.Opcode.Statement (.reservedF payload) := fun _ =>
  op_encodeReserved (by omega) payload

end Sys2Proof
end

