-- ==== Sys2Proof/Laws/Step.lean ====
section
/-! SUPPORT. Everything one step can be (R63), everything the Engine's turn can be (R206), and that a transaction
takes no event. -/

namespace Sys2Proof.Machine

/-- Everything one step can be: the Engine's turn, a transaction, or a reset. -/
theorem step_cases (s : State) :
    (s.events = [] ∧ step s = engineTurn s) ∨
    (∃ es, s.events = .engine :: es ∧ step s = engineTurn (s.setEvents es)) ∨
    (∃ t es, s.events = .bus t :: es ∧ step s = .next (transact (s.setEvents es) t)) ∨
    (∃ es, s.events = .reset :: es ∧ step s = .next (s.setEvents es).resetEvent) := by
  unfold step takeEvent
  split <;> simp_all

/-- The Engine's turn with no command pending changes nothing (R63, R219). -/
theorem engineTurn_idle {s : State} (h : s.pendV = false) : engineTurn s = .next s := by
  simp [engineTurn, h]

/-- Everything the Engine's turn can be with a command pending (R206). -/
theorem engineTurn_pending {s : State} (h : s.pendV = true) :
    (∃ i, decode s.pend = .ok i ∧ engineTurn s = exec i s) ∨
    (decode s.pend = .error .reservedField ∧ engineTurn s = .next (s.finish .reservedField)) := by
  unfold engineTurn engineStep
  rw [if_pos h]
  cases hd : decode s.pend with
  | ok i => exact .inl ⟨i, rfl, rfl⟩
  | error r => cases r; exact .inr ⟨rfl, rfl⟩

/-- A transaction takes no event of the order (R59, R63). -/
theorem transact_events (s : State) (tr : Transaction) : (transact s tr).events = s.events := by
  cases tr with
  | read a size =>
    show (memRead s a size).2.events = s.events
    rcases memRead_state s a size with h | ⟨h, _⟩ <;> rw [h]
    rfl
  | write a size d =>
    show (memWrite s a size d).2.events = s.events
    rcases memWrite_state s a size d with h | ⟨t, _, h⟩ <;> rw [h]
    cases t <;> simp only [writeTarget, guardedWrite, writeDim, writeMatrixRow, State.presentCommand] <;>
      (try split) <;> (try split) <;> rfl

end Sys2Proof.Machine
end

