-- ==== Sys2Proof/Laws/Run.lean ====
section
/-! SUPPORT. What the end of a run is, said once (R244). -/

namespace Sys2Proof.Machine

/-- A finished state: no transaction is to come and no command is pending (R244). -/
theorem finished_iff (s : State) :
    s.Finished ↔ (∀ e ∈ s.events, e.isTransaction = false) ∧ s.pendV = false := by
  simp [State.Finished, State.finished]

/-- A finished state is its own end (R244). -/
theorem endOfRun_finished {s : State} (h : s.Finished) (fuel : Nat) : endOfRun fuel s = some s := by
  cases fuel <;> exact if_pos h

/-- From an unfinished state the end is that of the run from the next state. -/
theorem endOfRun_step {s t : State} (h : ¬ s.Finished) (hs : step s = .next t) (fuel : Nat) :
    endOfRun (fuel + 1) s = endOfRun fuel t := by
  rw [endOfRun, if_neg h, hs]

/-- One more step of a run. -/
theorem run_succ {s t : State} (h : step s = .next t) (k : Nat) : core.run (k + 1) s = core.run k t := by
  have h' : core.step s = .next t := h
  simp only [Host.Core.run, h']

/-- Everything `endOfRun` can answer: the first finished state of the run (R244). -/
theorem endOfRun_first {fuel : Nat} {s t : State} (h : endOfRun fuel s = some t) :
    t.Finished ∧ ∃ k ≤ fuel, core.run k s = .next t ∧
      ∀ j < k, ∀ u : State, core.run j s = .next u → ¬ u.Finished := by
  induction fuel generalizing s with
  | zero =>
    rw [endOfRun] at h
    split at h <;> cases h
    exact ⟨‹_›, 0, le_rfl, rfl, fun j hj => absurd hj (Nat.not_lt_zero j)⟩
  | succ fuel ih =>
    by_cases hf : s.Finished
    · rw [endOfRun_finished hf] at h; cases h
      exact ⟨hf, 0, Nat.zero_le _, rfl, fun j hj => absurd hj (Nat.not_lt_zero j)⟩
    · cases hs : step s with
      | next u =>
        rw [endOfRun_step hf hs] at h
        obtain ⟨ht, k, hk, hr, hfirst⟩ := ih h
        refine ⟨ht, k + 1, Nat.succ_le_succ hk, (run_succ hs k).trans hr, ?_⟩
        rintro (_ | j) hj v hv
        · cases hv; exact hf
        · rw [run_succ hs] at hv; exact hfirst j (Nat.lt_of_succ_lt_succ hj) v hv
      | fault r => cases r
      | refused r => rw [endOfRun, if_neg hf, hs] at h; cases h

/-- More fuel changes no answer: the end of a run is one state. -/
theorem endOfRun_succ {fuel : Nat} {s t : State} (h : endOfRun fuel s = some t) : endOfRun (fuel + 1) s = some t := by
  induction fuel generalizing s with
  | zero =>
    rw [endOfRun] at h
    split at h <;> cases h
    exact endOfRun_finished ‹_› 1
  | succ fuel ih =>
    by_cases hf : s.Finished
    · rw [endOfRun_finished hf] at h ⊢; exact h
    · cases hs : step s with
      | next u => rw [endOfRun_step hf hs] at h ⊢; exact ih h
      | fault r => cases r
      | refused r => rw [endOfRun, if_neg hf, hs] at h; cases h

end Sys2Proof.Machine
end

