-- ==== Sys2Proof/Tests/Slice0.lean ====
section
/-! SUPPORT. The model's own tests. Every expected value is one of spec/95_test_vectors.md (its vector is named) or
written out by hand from the rule named. After them, for every obligation with hypotheses, a state and operands
that meet them: `test_witness_<obligation>`, a value at the boundary for each clause. -/

namespace Sys2Proof.Machine

/-! ### Builders -/

/-- The next state of an outcome. -/
def Test.nextOf : Host.Outcome State Fault Refusal → Option State
  | .next s => some s
  | _ => none

/-- A matrix by its first rows; the others are 0. -/
def Test.mat (rows : List Word) : Mat := Mat.ofRows fun i => rows.getD i 0

/-- The reset state with another DIM and the first matrix registers loaded. -/
def Test.at (dim : BitVec 6) (mats : List Mat) : State :=
  { State.reset with dim := dim, mats := Vector.ofFn fun r : Fin 8 => mats.getD r.val Mat.zero }

/-- What `f` sees after the command word `w` has run as the next step. -/
def Test.after {α : Type} (s : State) (w : Nat) (f : State → α) : Option α :=
  (Test.nextOf (step (s.withFetchWord 32 w))).map f

/-- STATUS as the host reads it. -/
def Test.status (s : State) : Word := s.status.toWord

/-- The identity of dimension 3. -/
def Test.i3 : Mat := Test.mat [0x1, 0x2, 0x4]

/-- AddRow(1, 0) of dimension 3 (L1-1). -/
def Test.add10 : Mat := Test.mat [0x1, 0x3, 0x4]

/-- Swap(0, 2) of dimension 3 (L1-1). -/
def Test.swap02 : Mat := Test.mat [0x4, 0x2, 0x1]

/-- B' of L1-1. -/
def Test.scrambled : Mat := Test.mat [0x4, 0x6, 0x1]

/-- The key of L1-1. -/
def Test.key : Mat := Test.mat [0x4, 0x3, 0x1]

/-- The log of L1-1: LOG[0] = 0x402, LOG[1] = 0x020. -/
def Test.log2 : List LogEntry := [{ kind := .swap, m := 0, n := 2 }, { kind := .addRow, m := 1, n := 0 }]

/-- The machine in the middle of L3-1: M0 = B', M1 = B, M2 = Key, both operations logged, V0 = 5. -/
def Test.scene : State :=
  { Test.at 3 [Test.scrambled, Test.i3, Test.key] with
    vecs := (Vector.replicate 8 (0 : Word)).set 0 0x5
    log := Test.log2 }

/-- DIM = 32 with every cell of M0 and every element of V0 set (MX-14). -/
def Test.full : State :=
  { Test.at 32 [Mat.ofRows fun _ => 0xFFFFFFFF] with
    vecs := (Vector.replicate 8 (0 : Word)).set 0 0xFFFFFFFF }

/-- DIM = 2 with a log of `len` entries Swap(0, 1) (AP-7). -/
def Test.logged (len : Nat) : State :=
  { Test.at 2 [Test.mat [0x1, 0x2]] with log := List.replicate len { kind := .swap, m := 0, n := 1 } }

/-- The scene with an accepted command, its Engine step to come. -/
def Test.busy : State := Test.scene.accept 0

/-! ### WellFormed: each check refuses an ill-formed term (R81, R82, R89) -/

theorem test_wellFormed_accepts_boundary :
    (Instr.swapgen 7 31 0).wellFormed = true ∧ (Instr.addgen 7 0 31).wellFormed = true ∧
    (Instr.applyAdd 7 31 31).wellFormed = true ∧ (Instr.applySwap 0 0 0).wellFormed = true := by decide

theorem test_wellFormed_refuses_m :
    (Instr.swapgen 0 32 0).wellFormed = false ∧ (Instr.addgen 0 32 0).wellFormed = false ∧
    (Instr.applyAdd 0 32 0).wellFormed = false ∧ (Instr.applySwap 0 32 0).wellFormed = false := by decide

theorem test_wellFormed_refuses_n :
    (Instr.swapgen 0 0 32).wellFormed = false ∧ (Instr.addgen 0 0 32).wellFormed = false ∧
    (Instr.applyAdd 0 0 32).wellFormed = false ∧ (Instr.applySwap 0 0 32).wellFormed = false := by decide

/-! ### Decoding: a word of every row, its fields written out from R81 and R83:
op rd ra rb rc rsv k m n -/

theorem test_decode_matrix :
    decode 0b0000_000_000_000_000_00000_0_00000_00000 = .ok .nop ∧
    decode 0b0001_111_000_000_000_00000_0_00000_00000 = .ok (.ident 7) ∧
    decode 0b0010_001_110_000_000_00000_0_00000_00000 = .ok (.mov 1 6) ∧
    decode 0b0011_010_000_001_000_00000_0_00000_00000 = .ok (.mul 2 0 1) ∧
    decode 0b0100_101_001_010_000_00000_0_00000_00000 = .ok (.mvmul 5 1 2) ∧
    decode 0b0101_000_011_001_000_00000_0_00000_00000 = .ok (.cmpeq 3 1) := by decide

theorem test_decode_generators :
    decode 0b0110_011_000_000_000_00000_0_00000_10100 = .ok (.swapgen 3 0 20) ∧
    decode 0b0111_000_000_000_000_00000_0_11111_00000 = .ok (.addgen 0 31 0) := by decide

theorem test_decode_composer :
    decode 0b1000_000_000_000_000_00000_0_00001_00000 = .ok (.applyAdd 0 1 0) ∧
    decode 0b1000_100_000_000_000_00000_1_00000_00010 = .ok (.applySwap 4 0 2) ∧
    decode 0b1001_101_000_000_000_00000_0_00000_00000 = .ok (.compose 5) ∧
    decode 0b1010_000_000_000_000_00000_0_00000_00000 = .ok .logclr := by decide

theorem test_decode_key :
    decode 0b1011_010_000_000_000_00000_0_00000_00000 = .ok (.keyderive 2) ∧
    decode 0b1100_011_010_000_001_00000_0_00000_00000 = .ok (.verify 3 2 0 1) := by decide

theorem test_decode_reserved :
    decode 0b1101_000_000_000_000_00000_0_00000_00001 = .ok (.reservedD 1) ∧
    decode 0b1110_000_000_000_000_00000_0_00000_00000 = .ok (.reservedE 0) ∧
    decode 0b1111_111_111_111_111_11111_1_11111_11111 = .ok (.reservedF 0xFFFFFFF) := by decide

/-- ER-4, ER-5, ER-6, MX-19, MX-20, LC-2, KV-10, KV-11. -/
theorem test_decode_rejects_by_name :
    decode 0x10000800 = .error .reservedField ∧ decode 0x00000001 = .error .reservedField ∧
    decode 0x8FFFFFFF = .error .reservedField ∧ decode 0x52000000 = .error .reservedField ∧
    decode 0x34080400 = .error .reservedField ∧ decode 0xA0000001 = .error .reservedField ∧
    decode 0xC6810001 = .error .reservedField ∧ decode 0xB4000020 = .error .reservedField := by decide

/-- The words of L3-1 and L3-4, from their commands. -/
theorem test_encode_programs :
    encode (.mov 1 0) = 0x22000000 ∧ encode (.applySwap 4 0 2) = 0x88000402 ∧
    encode (.mvmul 2 5 1) = 0x45480000 ∧ encode (.mul 7 5 4) = 0x3F600000 ∧
    encode (.verify 3 2 0 1) = 0xC6810000 ∧ encode (.keyderive 5) = 0xBA000000 := by decide

theorem test_decodeTableWord : decodeTableWord 32 0x9A000000 = some (.compose 5) ∧
    decodeTableWord 32 0x9A000001 = none := by decide

/-- R89: capitals or not, decimal or hexadecimal; M8 and an index of 32 are assembly errors. -/
theorem test_assemble :
    assemble "swapgen M3, 0, 0x14" = some (.swapgen 3 0 20) ∧
    assemble "APPLY.SWAP M0, 0, 2" = some (.applySwap 0 0 2) ∧
    assemble "MVMUL V2, M5, V1" = some (.mvmul 2 5 1) ∧ assemble "LOGCLR" = some .logclr ∧
    assemble "IDENT M8" = none ∧ assemble "ADDGEN M0, 32, 0" = none := by decide

/-! ### The matrix family -/

/-- MX-1. -/
theorem test_nop : Test.after State.reset 0x00000000 Test.status = some 0x2 := by decide

/-- MX-2. -/
theorem test_ident : Test.after (Test.at 3 []) 0x10000000 (fun t => t.M 0) = some Test.i3 := by decide

/-- MX-4, the last row. -/
theorem test_ident_top : Test.after (Test.at 32 []) 0x10000000 (fun t => (t.M 0).row 31) = some 0x80000000 := by
  decide

/-- MX-5. -/
theorem test_mov : Test.after (Test.at 3 [Test.scrambled]) 0x22000000 (fun t => (t.M 1, t.M 0)) =
    some (Test.scrambled, Test.scrambled) := by decide

/-- MX-6. -/
theorem test_mul : Test.after (Test.at 3 [Test.add10, Test.swap02]) 0x34080000 (fun t => t.M 2) =
    some Test.scrambled := by decide

/-- MX-7: a source that is also the destination. -/
theorem test_mul_alias : Test.after (Test.at 3 [Test.add10, Test.swap02]) 0x30400000 (fun t => t.M 0) =
    some Test.key := by decide

/-- MX-13: rd = rb. -/
theorem test_mvmul : Test.after
    { Test.at 3 [Test.add10] with vecs := (Vector.replicate 8 (0 : Word)).set 0 0x5 } 0x40000000
    (fun t => t.V 0) = some 0x7 := by decide

/-- MX-14: even parity in every row. -/
theorem test_mvmul_parity : Test.after Test.full 0x42000000 (fun t => t.V 1) = some 0 := by decide

/-- MX-16. -/
theorem test_cmpeq_differs : Test.after (Test.at 3 [Test.i3, Test.mat [0x1, 0x2, 0x1]]) 0x50080000 Test.status =
    some 0x2 := by decide

/-- MX-17. -/
theorem test_cmpeq_equal : Test.after State.reset 0x50000000 Test.status = some 0xA := by decide

/-- MX-19: a must-be-zero field, with EQ kept. -/
theorem test_reserved_field : Test.after (State.reset.setEq true) 0x52000000 Test.status = some 0x20E := by decide

/-! ### The generators -/

/-- GN-3, rows 0, 20 and 19. -/
theorem test_swapgen : Test.after State.reset 0x66000014 (fun t => ((t.M 3).row 0, (t.M 3).row 20, (t.M 3).row 19)) =
    some (0x100000, 0x1, 0x80000) := by decide

/-- GN-11, GN-12: INDEX_RANGE. -/
theorem test_swapgen_range : Test.after (Test.at 3 []) 0x60000003 Test.status = some 0x306 ∧
    Test.after State.reset 0x60000015 Test.status = some 0x306 := by decide

/-- GN-9: the last row of the widest matrix. -/
theorem test_addgen : Test.after (Test.at 32 []) 0x700003E0 (fun t => ((t.M 0).row 31, (t.M 0).row 30)) =
    some (0x80000001, 0x40000000) := by decide

/-- GN-10: INDEX_EQUAL. -/
theorem test_addgen_equal : Test.after (Test.at 3 []) 0x70000042 (fun t => (Test.status t, t.M 0)) =
    some (0x406, Mat.zero) := by decide

/-! ### The composer -/

/-- AP-1. -/
theorem test_applySwap : Test.after (Test.at 3 [Test.i3]) 0x80000402 (fun t => (t.M 0, t.log.map LogEntry.toWord)) =
    some (Test.swap02, [0x402]) := by decide

/-- AP-6: INDEX_EQUAL at DIM = 1. -/
theorem test_apply_equal : Test.after (Test.at 1 []) 0x80000000 Test.status = some 0x406 := by decide

/-- AP-2. -/
theorem test_applyAdd : Test.after
    { Test.at 3 [Test.swap02] with log := [{ kind := .swap, m := 0, n := 2 }] } 0x80000020
    (fun t => (t.M 0, t.log.map LogEntry.toWord)) = some (Test.scrambled, [0x402, 0x020]) := by decide

/-- The start of CM-3 and CM-4 in a mode, with the draws of the vectors supplied. -/
def Test.image4 (mode : Mode) : State :=
  { Test.at 4 [Test.mat [0xA, 0x6, 0xF, 0x1]] with
    iter := 3
    policy := { mode := mode, swapw := 0x80 }
    draws := { Draws.start with pairInputs := [(0, 3), (1, 2), (3, 1)], kindInputs := [false, true, false] } }

/-- CM-3 and CM-4: MIXED; and ADD, where the same pairs are AddRow operations and no kind is taken. -/
theorem test_compose_draws :
    Test.after (Test.image4 .mixed) 0x90000000 (fun t => (t.M 0, t.log.map LogEntry.toWord)) =
      some (Test.mat [0xB, 0xF, 0x6, 0xE], [0x003, 0x422, 0x061]) ∧
    Test.after (Test.image4 .add) 0x90000000 (fun t => (t.log.map LogEntry.toWord, t.draws.kindInputs.length)) =
      some ([0x003, 0x022, 0x061], 3) := by decide

/-- CM-8: DEGENERATE before LOG_FULL. -/
theorem test_compose_degenerate : Test.after { Test.at 1 [] with iter := 2000 } 0x90000000 Test.status =
    some 0x506 := by decide

/-- LC-1. -/
theorem test_logclr : Test.after Test.scene 0xA0000000
    (fun t => (t.loglen, (memRead t 0x3000 .word).1, t.M 0)) =
    some (0, .read .okay 0, Test.scrambled) := by decide

/-! ### Key and verifier -/

/-- KV-1. -/
theorem test_keyderive : Test.after { Test.scene with mats := Vector.replicate 8 Mat.zero } 0xB4000000
    (fun t => (t.M 2, t.log)) = some (Test.key, Test.log2) := by decide

/-- KV-2: the empty log. -/
theorem test_keyderive_empty : Test.after (Test.at 3 []) 0xB0000000 (fun t => t.M 0) = some Test.i3 := by decide

/-- KV-3: the key in the losing order does not recover; a mismatch is no error. -/
theorem test_verify_mismatch : Test.after (Test.at 3 [Test.scrambled, Test.i3, Test.scrambled]) 0xC6810000
    (fun t => (t.M 3, Test.status t)) = some (Test.mat [0x1, 0x7, 0x4], 0x2) := by decide

/-- KV-5: the destination is the original, compared as it was. -/
theorem test_verify_alias : Test.after Test.scene 0xC2810000 (fun t => (t.M 1, Test.status t)) =
    some (Test.i3, 0xA) := by decide

/-! ### The reserved opcodes -/

/-- ER-1, ER-2, ER-3. -/
theorem test_reserved_opcodes : Test.after State.reset 0xD0000000 Test.status = some 0x106 ∧
    Test.after State.reset 0xE0000000 Test.status = some 0x106 ∧
    Test.after State.reset 0xFFFFFFFF Test.status = some 0x106 := by decide

/-! ### Bus, registers, hazards, interrupt -/

/-- BU-1, BU-2. -/
theorem test_reset_reads :
    (memRead State.reset 0x000 .word).1 = .read .okay 0x47463201 ∧
    (memRead State.reset 0x004 .word).1 = .read .okay 0x04008820 ∧
    (memRead State.reset 0x010 .word).1 = .read .okay 0 ∧
    (memRead State.reset 0x014 .word).1 = .read .okay 0x15 ∧
    (memRead State.reset 0x018 .word).1 = .read .okay 0x3E8 := by decide

/-- BU-3, BU-4. -/
theorem test_bus_errors :
    (memRead State.reset 0x024 .word).1 = .read .error 0 ∧ (memRead State.reset 0x1400 .word).1 = .read .error 0 ∧
    (memRead State.reset 0x2020 .word).1 = .read .error 0 ∧ (memRead State.reset 0x4000 .word).1 = .read .error 0 ∧
    (memRead State.reset 0x1002 .word).1 = .read .error 0 ∧
    (memWrite State.reset 0x016 .word 3).1 = .write .error ∧
    (memRead State.reset 0x1000 .byte).1 = .read .error 0 := by decide

/-- BU-6, BU-7, BU-8. -/
theorem test_windows_masked :
    (memRead (memWrite State.reset 0x1000 .word 0xFFFFFFFF).2 0x1000 .word).1 = .read .okay 0x1FFFFF ∧
    (memRead (memWrite State.reset 0x1054 .word 1).2 0x1054 .word).1 = .read .okay 0 ∧
    (memRead (memWrite (Test.at 3 []) 0x2000 .word 0xFFFFFFFF).2 0x2000 .word).1 = .read .okay 7 := by decide

/-- BU-9, BU-10. -/
theorem test_dim_write :
    (memWrite Test.scene 0x014 .word 0).2 = Test.scene ∧ (memWrite Test.scene 0x014 .word 33).2 = Test.scene ∧
    (memWrite Test.scene 0x014 .word 0x40000003).2 = Test.scene ∧
    (memWrite (Test.scene.setEq true) 0x014 .word 3).2 = Test.at 3 [] := by decide

/-- BU-11 to BU-14. -/
theorem test_register_writes :
    (memRead (memWrite State.reset 0x01C .word 0xFFFFFFFF).2 0x01C .word).1 = .read .okay 0xFF00 ∧
    (memRead (memWrite (memWrite State.reset 0x01C .word 2).2 0x01C .word 3).2 0x01C .word).1 = .read .okay 2 ∧
    (memRead (memWrite State.reset 0x018 .word 0x10005).2 0x018 .word).1 = .read .okay 5 ∧
    (memRead (memWrite State.reset 0x008 .word 0xFFFFFFFF).2 0x008 .word).1 = .read .okay 7 := by decide

/-- ER-7, ER-8: clearing DONE and ERR keeps ERRCODE; the next acceptance clears it. -/
theorem test_status_clear :
    Test.status (memWrite (State.reset.finish .indexEqual) 0x00C .word 6).2 = 0x400 ∧
    Test.after (memWrite (State.reset.finish .indexEqual) 0x00C .word 6).2 0x10000000 Test.status = some 2 := by
  decide

/-- HZ-1, HZ-2, HZ-5: a second command while BUSY is discarded; what a broken BUSY rule does. -/
theorem test_busy_rules :
    (fun t : State => (Test.status t, t.pend)) (memWrite (State.reset.accept 0) 0x010 .word 0x10000000).2 =
      (0x11, 0) ∧
    (memRead Test.busy 0x1000 .word).1 = .read .okay 0 ∧ Test.status (memRead Test.busy 0x1000 .word).2 = 0x11 ∧
    (memWrite Test.busy 0x018 .word 7).2.iter = 1000 ∧
    (memRead Test.busy 0x020 .word).1 = .read .okay 2 ∧
    Test.status (memWrite Test.busy 0x3000 .word 1).2 = 0x1 := by decide

/-- HZ-3: the Engine then runs the first command, and HAZ stays. -/
theorem test_busy_then_engine :
    (Test.nextOf (step (memWrite (State.reset.accept 0) 0x010 .word 0x10000000).2)).map
      (fun t => (Test.status t, t.M 0)) = some (0x12, Mat.zero) := by decide

/-- IQ-1, IQ-2, IQ-3. -/
theorem test_irq :
    Test.after (memWrite State.reset 0x008 .word 1).2 0x00000000 State.irq = some true ∧
    Test.after (memWrite State.reset 0x008 .word 2).2 0x00000000 State.irq = some false ∧
    Test.after (memWrite State.reset 0x008 .word 2).2 0xD0000000 State.irq = some true := by decide

/-- R230: a reset event while a command is pending abandons it. -/
theorem test_reset_event : (Test.nextOf (step { Test.busy with events := [.reset] })) = some State.reset := by decide

/-- R244: the run of one command ends when it has completed, before the reset that is still to come, and not when it
is only accepted. -/
theorem test_end_of_run :
    let s : State := { State.reset with events := Script.cmd .nop ++ [.engine, .reset] }
    (endOfRun 3 s).map (fun t => (Test.status t, t.events)) = some (0x2, [.reset]) ∧ endOfRun 1 s = none := by decide

/-- R244: a program that issues nothing has ended where it starts, with an Engine's turn to come. -/
theorem test_end_of_empty_run : endOfRun 1 { Test.scene with events := [.engine] } =
    some { Test.scene with events := [.engine] } := by decide

/-- R60: the byte at offset a is lane a mod 4 of its word. -/
theorem test_byte_lanes :
    wordBytes (peek State.reset .iter) = [0xE8, 0x03, 0x00, 0x00] ∧ peekByte State.reset 0x019 = 0x03 := by decide

/-! ### Checks that can be evaluated, for the witnesses -/

/-- Row by row: nothing outside the leading N×N region. -/
def Test.regionCheck (N : Nat) (A : Mat) : Bool :=
  (List.range 32).all fun i => A.row i == if i < N then A.row i &&& colmask N else 0

theorem Test.inRegion_of_check {N : Nat} {A : Mat} (h : Test.regionCheck N A = true) : A.InRegion N := by
  intro i j hij
  by_cases hi : i < 32
  · have hr : A.row i = if i < N then A.row i &&& colmask N else 0 :=
      eq_of_beq (List.all_eq_true.1 h i (List.mem_range.2 hi))
    rw [Mat.cell, hr]
    split
    · rw [getLsbD_and_colmask, decide_eq_false (by omega), Bool.and_false]
    · exact BitVec.getLsbD_zero
  · exact A.cell_of_ge_row j (by omega)

theorem Test.vecInRegion_of_check {N : Nat} {v : Word} (h : v &&& colmask N = v) : vecInRegion N v := by
  intro j hj
  rw [← h, getLsbD_and_colmask, decide_eq_false (by omega), Bool.and_false]

theorem Test.dataOk_of_check {s : State} (hm : ∀ r, Test.regionCheck s.N (s.M r) = true)
    (hv : ∀ r, s.V r &&& colmask s.N = s.V r) : s.DataOk :=
  ⟨fun r => Test.inRegion_of_check (hm r), fun r => Test.vecInRegion_of_check (hv r)⟩

/-- Entry by entry: a valid log. -/
def Test.logCheck (N : Nat) (es : List LogEntry) : Bool :=
  es.all fun e => decide (e.m.toNat < N) && decide (e.n.toNat < N) && decide (e.m ≠ e.n)

theorem Test.valid_of_check {N : Nat} {es : List LogEntry} (h : Test.logCheck N es = true) :
    ∀ e ∈ es, e.Valid N := by
  intro e he
  have := List.all_eq_true.1 h e he
  simp only [Bool.and_eq_true, decide_eq_true_eq] at this
  exact ⟨this.1.1, this.1.2, this.2⟩

/-- The scene, idle or with a command pending, meets the invariant. -/
theorem test_scene_data : Test.scene.DataOk := Test.dataOk_of_check (by decide) (by decide)

theorem test_full_data : Test.full.DataOk := Test.dataOk_of_check (by decide) (by decide)

theorem test_scene_invariant : Test.scene.Inv :=
  ⟨⟨by decide, by decide⟩, test_scene_data, ⟨by decide, Test.valid_of_check (by decide)⟩,
    ⟨by decide, by decide, by decide⟩⟩

theorem test_busy_invariant : Test.busy.Inv :=
  ⟨⟨by decide, by decide⟩, Test.dataOk_of_check (by decide) (by decide),
    ⟨by decide, Test.valid_of_check (by decide)⟩, ⟨by decide, by decide, by decide⟩⟩

/-! ### Witnesses: encoding and step -/

theorem test_witness_DecodeOfEncode :
    (Instr.applySwap 7 31 31).WellFormed ∧ (Instr.verify 7 7 7 7).WellFormed ∧ Instr.nop.WellFormed := by decide

theorem test_witness_EncodeOfDecode : decode 0x8E0007FF = .ok (.applySwap 7 31 31) := by decide

/-- Each clause at a word with every operand bit set. -/
theorem test_witness_TableRowsDecode :
    (0x1E000000 : Word) &&& 0xF1FFFFFF = 0x10000000 ∧ (0x2FC00000 : Word) &&& 0xF03FFFFF = 0x20000000 ∧
    (0x3FF80000 : Word) &&& 0xF007FFFF = 0x30000000 ∧ (0x4FF80000 : Word) &&& 0xF007FFFF = 0x40000000 ∧
    (0x51F80000 : Word) &&& 0xFE07FFFF = 0x50000000 ∧ (0x6E0003FF : Word) &&& 0xF1FFFC00 = 0x60000000 ∧
    (0x7E0003FF : Word) &&& 0xF1FFFC00 = 0x70000000 ∧ (0x8E0003FF : Word) &&& 0xF1FFFC00 = 0x80000000 ∧
    (0x8E0007FF : Word) &&& 0xF1FFFC00 = 0x80000400 ∧ (0x9E000000 : Word) &&& 0xF1FFFFFF = 0x90000000 ∧
    (0xBE000000 : Word) &&& 0xF1FFFFFF = 0xB0000000 ∧ (0xCFFF0000 : Word) &&& 0xF000FFFF = 0xC0000000 ∧
    (0xDFFFFFFF : Word) &&& 0xF0000000 = 0xD0000000 ∧ (0xEFFFFFFF : Word) &&& 0xF0000000 = 0xE0000000 ∧
    (0xFFFFFFFF : Word) &&& 0xF0000000 = 0xF0000000 := by decide

theorem test_witness_EveryWordHasOneOutcome :
    Word.op 0 = 0 ∧ staticCheck 0 = .none ∧ staticCheck 0xC0000001 = .reservedField ∧
    staticCheck 0xD0000000 = .illegalOpcode := by decide

/-- Each clause: the turn by itself, the turn as an event, no command, a transaction, a reset. -/
theorem test_witness_StepRunsDecodedCommand :
    (Test.busy.EngineNext ∧ Test.busy.pendV = true ∧ decode Test.busy.pend = .ok .nop) ∧
    (State.withFetchWord Test.scene 32 0xC6810000).EngineNext ∧
    (Test.scene.EngineNext ∧ Test.scene.pendV = false) ∧
    { Test.busy with events := [.bus (.read 0 .word)] }.events = .bus (.read 0 .word) :: [] ∧
    { Test.busy with events := [.reset] }.events = .reset :: [] :=
  ⟨⟨.inl (by decide), by decide, by decide⟩, .inr (by decide), ⟨.inl (by decide), by decide⟩, rfl, rfl⟩

theorem test_witness_ReservedFieldWordFails :
    (Test.scene.accept 0xC0000001).EngineNext ∧ (Test.scene.accept 0xC0000001).pendV = true ∧
    (Test.scene.accept 0xC0000001).pend.op ≤ 0xC ∧
    (Test.scene.accept 0xC0000001).pend &&& zeroMask (Test.scene.accept 0xC0000001).pend.op ≠ 0 :=
  ⟨.inl (by decide), by decide, by decide, by decide⟩

theorem test_witness_ReservedOpcodeFails :
    (Test.scene.accept 0xD0000000).EngineNext ∧ (Test.scene.accept 0xD0000000).pendV = true ∧
    0xD ≤ (Test.scene.accept 0xD0000000).pend.op := ⟨.inl (by decide), by decide, by decide⟩

/-! ### Witnesses: matrix family -/

theorem test_witness_IdentLoadsIdentity : (Test.at 1 []).N ≤ 32 ∧ (Test.at 32 []).N ≤ 32 := by decide

theorem test_witness_MulIsProductMod2 : Test.scene.DataOk ∧ Test.full.DataOk ∧ Test.full.N = 32 :=
  ⟨test_scene_data, test_full_data, by decide⟩

theorem test_witness_MvmulIsProductMod2 : Test.scene.DataOk ∧ Test.full.DataOk ∧ Test.full.V 0 ≠ 0 :=
  ⟨test_scene_data, test_full_data, by decide⟩

/-- Equal operands and operands that differ. -/
theorem test_witness_CmpeqComparesCells :
    Test.scene.DataOk ∧ Test.scene.M 0 ≠ Test.scene.M 1 ∧ Test.scene.M 3 = Test.scene.M 4 :=
  ⟨test_scene_data, by decide, by decide⟩

theorem test_witness_MatMulIsGF2Product : Test.full.N ≤ 32 ∧ matMul Test.key Test.scrambled 3 = Test.i3 := by decide

theorem test_witness_IdentityLaw : Test.scrambled.InRegion 3 ∧ (Test.full.M 0).InRegion 32 :=
  ⟨Test.inRegion_of_check (by decide), test_full_data.1 0⟩

/-! ### Witnesses: generators -/

theorem test_witness_SwapgenBuildsSwap :
    ((Test.at 2 []).N ≤ 32 ∧ 0 < (Test.at 2 []).N ∧ 1 < (Test.at 2 []).N ∧ (0 : Nat) ≠ 1) ∧
    ((Test.at 32 []).N ≤ 32 ∧ 31 < (Test.at 32 []).N ∧ 0 < (Test.at 32 []).N ∧ (31 : Nat) ≠ 0) := by decide

theorem test_witness_AddgenBuildsAddRow :
    ((Test.at 2 []).N ≤ 32 ∧ 1 < (Test.at 2 []).N ∧ 0 < (Test.at 2 []).N ∧ (1 : Nat) ≠ 0) ∧
    ((Test.at 32 []).N ≤ 32 ∧ 31 < (Test.at 32 []).N ∧ 30 < (Test.at 32 []).N ∧ (31 : Nat) ≠ 30) := by decide

/-- INDEX_RANGE at m = DIM and at n = DIM; INDEX_EQUAL at the last row; LOG_FULL for the full log. -/
theorem test_witness_IndexErrorsInOrder :
    (State.reset.N ≤ 21 ∨ State.reset.N ≤ 0) ∧ (State.reset.N ≤ 0 ∨ State.reset.N ≤ 21) ∧
    (20 < State.reset.N ∧ (20 : Nat) = 20) ∧
    (0 < (Test.logged 1024).N ∧ 1 < (Test.logged 1024).N ∧ (0 : Nat) ≠ 1 ∧ (Test.logged 1024).loglen = 1024) :=
  ⟨by decide, by decide, by decide, by decide, by decide, by decide, List.length_replicate ..⟩

theorem test_witness_LeftActionIsRowOperation :
    (3 : Nat) ≤ 32 ∧ Test.scrambled.InRegion 3 ∧ (2 : Nat) < 3 ∧ (0 : Nat) < 3 ∧ (2 : Nat) ≠ 0 :=
  ⟨by decide, Test.inRegion_of_check (by decide), by decide, by decide, by decide⟩

theorem test_witness_RightActionIsColumnOperation :
    (32 : Nat) ≤ 32 ∧ (Test.full.M 0).InRegion 32 ∧ (0 : Nat) < 32 ∧ (31 : Nat) < 32 ∧ (0 : Nat) ≠ 31 :=
  ⟨by decide, test_full_data.1 0, by decide, by decide, by decide⟩

theorem test_witness_ElementarySelfInverse :
    ((2 : Nat) ≤ 32 ∧ (0 : Nat) < 2 ∧ (1 : Nat) < 2 ∧ (0 : Nat) ≠ 1) ∧
    ((32 : Nat) ≤ 32 ∧ (31 : Nat) < 32 ∧ (0 : Nat) < 32 ∧ (31 : Nat) ≠ 0) := by decide

theorem test_witness_DrawIsEveryValidPair : (2 : Nat) ≤ 2 ∧ (0 : Nat) < 2 ∧ (1 : Nat) < 2 ∧ (0 : Nat) ≠ 1 := by decide

/-! ### Witnesses: composer -/

/-- One entry short of a full log. -/
theorem test_witness_ApplyActsAndLogs :
    (Test.logged 1023).N ≤ 32 ∧ ((Test.logged 1023).M 0).InRegion (Test.logged 1023).N ∧
    0 < (Test.logged 1023).N ∧ 1 < (Test.logged 1023).N ∧ (0 : Nat) ≠ 1 ∧ (Test.logged 1023).loglen < 1024 :=
  ⟨by decide, Test.inRegion_of_check (by decide), by decide, by decide, by decide,
    (List.length_replicate (n := 1023)).trans_lt (by decide)⟩

theorem test_witness_AppliedEntryIsCommandBits : (31 : Nat) < 32 ∧ (0 : Nat) < 32 := by decide

/-- K = 1024 on an empty log at DIM = 2 in both single-kind modes, and K = 0 at DIM = 1. -/
theorem test_witness_ComposeAppliesDrawnOperations :
    ((Test.logged 0).N ≤ 32 ∧ 2 ≤ (Test.logged 0).N ∧
      (Test.logged 0).loglen + ({ Test.logged 0 with iter := 1024 } : State).iter.toNat ≤ 1024) ∧
    ((Test.at 1 []).N ≤ 32 ∧ ({ Test.at 1 [] with iter := 0 } : State).iter.toNat = 0) ∧
    (Test.logged 0).policy.mode = .add ∧
    ({ Test.logged 0 with policy := { mode := .swap, swapw := 0 } } : State).policy.mode = .swap := by decide

/-- What COMPOSE is supplied with: a mode, pairs and kinds, with a draw of each left over. -/
def Test.drawing (mode : Mode) (kinds : List Bool) : State :=
  { Test.at 3 [Test.i3] with
    iter := 2
    policy := { mode := mode, swapw := 0x80 }
    draws := { Draws.start with pairInputs := [(0, 2), (1, 0), (2, 1)], kindInputs := kinds ++ [true] } }

/-- The pairs of the log of L1-1 as operations of one kind. -/
def Test.log2Of (kind : OpKind) : List LogEntry := Test.log2.map fun e => { e with kind := kind }

/-- MIXED with the kinds of L1-1, and ADD and SWAP, which take no kind. -/
theorem test_witness_ComposeAdmitsEveryDraw :
    (∀ e ∈ Test.log2, e.Valid 3) ∧ (∀ e ∈ Test.log2Of .addRow, e.Valid 3 ∧ e.kind = .addRow) ∧
    (∀ e ∈ Test.log2Of .swap, e.Valid 3 ∧ e.kind = .swap) ∧
    (let s := Test.drawing .mixed [true, false]
     s.N = 3 ∧ s.policy.mode = .mixed ∧ s.iter.toNat = Test.log2.length ∧ s.loglen + Test.log2.length ≤ 1024 ∧
     s.draws.pairInputs = Test.log2.map (fun e => (e.m.toNat, e.n.toNat)) ++ [(2, 1)] ∧
     s.draws.kindInputs = Test.log2.map (fun e => decide (e.kind = .swap)) ++ [true]) ∧
    (let s := Test.drawing .add []
     s.N = 3 ∧ s.policy.mode = .add ∧ s.iter.toNat = (Test.log2Of .addRow).length ∧
     s.draws.pairInputs = (Test.log2Of .addRow).map (fun e => (e.m.toNat, e.n.toNat)) ++ [(2, 1)] ∧
     s.draws.kindInputs = [] ++ [true]) ∧
    (let s := Test.drawing .swap []
     s.N = 3 ∧ s.policy.mode = .swap ∧ s.iter.toNat = (Test.log2Of .swap).length ∧
     s.draws.pairInputs = (Test.log2Of .swap).map (fun e => (e.m.toNat, e.n.toNat)) ++ [(2, 1)] ∧
     s.draws.kindInputs = [] ++ [true]) := by
  refine ⟨Test.valid_of_check (by decide), fun e he => ⟨Test.valid_of_check (es := Test.log2Of .addRow) (by decide) e he, ?_⟩,
    fun e he => ⟨Test.valid_of_check (es := Test.log2Of .swap) (by decide) e he, ?_⟩, by decide, by decide, by decide⟩
  · obtain ⟨_, _, rfl⟩ := List.mem_map.1 he; rfl
  · obtain ⟨_, _, rfl⟩ := List.mem_map.1 he; rfl

/-- DEGENERATE with K = 1 at DIM = 1; LOG_FULL with one operation too many, and with K = 0 only in a state no run
reaches. -/
theorem test_witness_ComposeErrorsInOrder :
    ((Test.at 1 []).N < 2 ∧ 0 < ({ Test.at 1 [] with iter := 1 } : State).iter.toNat) ∧
    (2 ≤ (Test.logged 0).N ∧
      1024 < (Test.logged 0).loglen + ({ Test.logged 0 with iter := 1025 } : State).iter.toNat) ∧
    (({ Test.logged 1025 with iter := 0 } : State).iter.toNat = 0 ∧ (Test.logged 1025).loglen = 1025) :=
  ⟨by decide, by decide, by decide, List.length_replicate ..⟩

theorem test_witness_ComposeZeroChangesNothing :
    ({ Test.logged 1024 with iter := 0 } : State).iter.toNat = 0 ∧ (Test.logged 1024).loglen ≤ 1024 :=
  ⟨by decide, (List.length_replicate (n := 1024)).le⟩

/-- What the tracked register holds, before an APPLY, an APPLY in error, and a COMPOSE of K = 0. -/
theorem test_witness_ComposerKeepsTracking :
    Tracks Test.scene 0 Test.i3 ∧ (∃ t, exec (.applySwap 0 0 2) Test.scene = .next t) ∧
    (∃ t, exec (.applyAdd 0 2 2) Test.scene = .next t) ∧
    ∃ t, exec (.compose 0) { Test.scene with iter := 0 } = .next t :=
  ⟨show Test.scene.M 0 = applyAll Test.scene.N Test.i3 Test.scene.log by decide, ⟨_, rfl⟩, ⟨_, rfl⟩, ⟨_, rfl⟩⟩

/-! ### Witnesses: key and verifier -/

theorem test_witness_KeyderiveIsRecordedProduct :
    (Test.scene.N ≤ 32 ∧ ∀ e ∈ Test.scene.log, e.Valid Test.scene.N) ∧
    (Test.full.N ≤ 32 ∧ ∀ e ∈ Test.full.log, e.Valid Test.full.N) :=
  ⟨⟨by decide, Test.valid_of_check (by decide)⟩, by decide, Test.valid_of_check (by decide)⟩

theorem test_witness_KeyEquivalentComputations : (3 : Nat) ≤ 32 ∧ ∀ e ∈ Test.log2, e.Valid 3 :=
  ⟨by decide, Test.valid_of_check (by decide)⟩

theorem test_witness_KeyInvertsTransform :
    (3 : Nat) ≤ 32 ∧ (∀ e ∈ Test.log2, e.Valid 3) ∧ Test.scrambled.InRegion 3 :=
  ⟨by decide, Test.valid_of_check (by decide), Test.inRegion_of_check (by decide)⟩

/-- A product equal to the original, one that is not, and the widest matrices. -/
theorem test_witness_VerifyComparesRecovered :
    Test.scene.DataOk ∧ recovered Test.scene 2 0 = Test.scene.M 1 ∧ recovered Test.scene 0 0 ≠ Test.scene.M 1 ∧
    Test.full.DataOk := ⟨test_scene_data, by decide, by decide, test_full_data⟩

theorem test_witness_RoundTripVerifies :
    Test.scene.Inv ∧ Test.i3.InRegion Test.scene.N ∧ Tracks Test.scene 0 Test.i3 ∧ Test.scene.M 1 = Test.i3 ∧
    (2 : RegNo) ≠ 0 ∧ (2 : RegNo) ≠ 1 :=
  ⟨test_scene_invariant, Test.inRegion_of_check (by decide), test_witness_ComposerKeepsTracking.1, by decide,
    by decide, by decide⟩

/-! ### Witnesses: errors, completion, frames -/

theorem test_witness_ErrorsArePrecise :
    let s := Test.scene.accept 0x80000403
    s.pendV = true ∧ ∃ t, engineTurn s = .next t ∧ t.status.errcode ≠ .none := ⟨by decide, _, rfl, by decide⟩

theorem test_witness_EngineStepCompletes :
    Test.scene.pendV = false ∧ Test.busy.pendV = true ∧ staticCheck (Test.scene.accept 0x10000800).pend ≠ .none ∧
    (Test.scene.accept 0x10000800).pendV = true := by decide

/-- Each clause: a command with another destination, an APPLY, a command that appends nothing, one that writes no
EQ, one that draws nothing. -/
theorem test_witness_CommandsWriteOnlyDestinations :
    (∃ t, exec (.mov 1 0) Test.scene = .next t) ∧ destM (.mov 1 0) ≠ some 2 ∧
    (∃ t, exec (.mvmul 1 0 0) Test.scene = .next t) ∧ destV (.mvmul 1 0 0) ≠ some 2 ∧
    (∃ t, exec (.applySwap 0 0 2) Test.scene = .next t) ∧ appendsLog (.applySwap 0 0 2) = true ∧
    appendsLog (.mov 1 0) = false ∧ writesEq (.mov 1 0) = false ∧ ∀ rd, Instr.mov 1 0 ≠ .compose rd :=
  ⟨⟨_, rfl⟩, by decide, ⟨_, rfl⟩, by decide, ⟨_, rfl⟩, by decide, by decide, by decide, nofun⟩

/-- Two states that differ in SWAPW, CTRL and STATUS. -/
theorem test_witness_CommandsReadOnlyInputs :
    let u : State :=
      { Test.scene with
        policy := { mode := .add, swapw := 0xFF }
        ctrl := { ieDone := true, ieErr := true, ieHaz := true }
        status := { Status.zero with eq := true, haz := true } }
    SameInputs Test.scene u ∧ (∃ t, exec (.verify 3 2 0 1) Test.scene = .next t) ∧
    (∃ t, exec (.verify 3 2 0 1) u = .next t) ∧ writesEq (.verify 3 2 0 1) = true :=
  ⟨⟨rfl, rfl, rfl, rfl, rfl, rfl, rfl⟩, ⟨_, rfl⟩, ⟨_, rfl⟩, rfl⟩

/-- Bytes that change: of STATUS, of the last row below DIM, of a vector, of LOGLEN and LOG[LOGLEN], and of LOG[0]
under LOGCLR. -/
theorem test_witness_AddressSpaceFrame :
    (Test.nextOf (exec (.ident 7) Test.scene)).map (fun t =>
      (decide (peekByte t 0x000C ≠ peekByte Test.scene 0x000C), decide (peekByte t 0x1388 ≠ peekByte Test.scene 0x1388)))
      = some (true, true) ∧
    (Test.nextOf (exec (.mvmul 7 0 0) Test.scene)).map (fun t =>
      decide (peekByte t 0x201C ≠ peekByte Test.scene 0x201C)) = some true ∧
    (Test.nextOf (exec (.applySwap 0 0 1) Test.scene)).map (fun t =>
      (decide (peekByte t 0x0020 ≠ peekByte Test.scene 0x0020), decide (peekByte t 0x3008 ≠ peekByte Test.scene 0x3008)))
      = some (true, true) ∧
    (Test.nextOf (exec .logclr Test.scene)).map (fun t =>
      decide (peekByte t 0x3000 ≠ peekByte Test.scene 0x3000)) = some true := by decide

/-! ### Witnesses: the bus -/

theorem test_witness_AddressMapIsTheTable :
    (0x3FFC : Addr).toNat % 4 = 0 ∧ target 0x3FFC = some (.logEntry 1023) ∧ target 0x0024 = none := by decide

/-- A size, an alignment, and the first unmapped offset after each area. -/
theorem test_witness_RefusedAccessesChangeNothing :
    AccessSize.half ≠ .word ∧ (0x1002 : Addr).toNat % 4 ≠ 0 ∧ ¬ isMapped 0x0024 ∧ ¬ isMapped 0x1400 ∧
    ¬ isMapped 0x2020 ∧ ¬ isMapped 0x4000 := by
  unfold isMapped inMatrixWindow inVectorWindow inLogWindow
  decide

/-- BUSY; the last row below DIM; the first row at it. -/
theorem test_witness_MatrixWindowAccess :
    Test.busy.status.busy = true ∧ (Test.scene.status.busy = false ∧ (2 : Fin 32).val < Test.scene.N) ∧
    (Test.scene.status.busy = false ∧ Test.scene.N ≤ (3 : Fin 32).val) := by decide

theorem test_witness_VectorWindowAccess : Test.busy.status.busy = true ∧ Test.scene.status.busy = false := by decide

/-- BUSY; the last entry below LOGLEN; the first index at it. -/
theorem test_witness_LogWindowAccess :
    Test.busy.status.busy = true ∧
    (Test.scene.status.busy = false ∧ Test.scene.log[(1 : Fin 1024).val]? = some { kind := .addRow, m := 1, n := 0 }) ∧
    Test.scene.loglen ≤ (2 : Fin 1024).val := by decide

/-- BUSY; the smallest and the largest legal value; the values just outside. -/
theorem test_witness_DimWriteBeginsRun :
    Test.busy.status.busy = true ∧ Test.scene.status.busy = false ∧
    (1 ≤ (1 : Word).toNat ∧ (32 : Word).toNat ≤ 32) ∧ (0 : Word).toNat = 0 ∧ 32 < (33 : Word).toNat := by decide

/-- BUSY; idle with MODE written 3, and written 2. -/
theorem test_witness_IterAndPolicyWrites :
    Test.busy.status.busy = true ∧ Test.scene.status.busy = false ∧ (0xFFFFFFFF : Word).toNat % 4 = 3 ∧
    (2 : Word).toNat % 4 ≠ 3 := by decide

theorem test_witness_CmdWriteAcceptance : Test.scene.status.busy = false ∧ Test.busy.status.busy = true := by decide

theorem test_witness_BusyProtectsOperands : Test.busy.status.busy = true := by decide

/-- HAZ clear while BUSY, and set; a transaction that breaks a rule, and one that clears HAZ. -/
theorem test_witness_HazSetAndClearedExactly :
    (Test.busy.status.haz = false ∧ Test.busy.status.busy = true ∧ BreaksBusyRule (.write 0x10 .word 0)) ∧
    (Test.busy.setHaz.status.haz = true ∧ ClearsHaz (.write 0x0C .word 0x10)) ∧
    ∃ t, engineTurn Test.busy.setHaz = .next t :=
  ⟨⟨by decide, by decide, by decide, .inl (by decide)⟩, ⟨by decide, by decide, by decide⟩, _, rfl⟩

/-- A write of STATUS, and a DIM write just out of range. -/
theorem test_witness_AccessesRepeatable :
    (0x0C : Addr).toNat ≠ 0x10 ∧
    ((0x14 : Addr).toNat ≠ 0x10 ∧ ¬ ((0x14 : Addr).toNat = 0x14 ∧ 1 ≤ (33 : Word).toNat ∧ (33 : Word).toNat ≤ 32)) := by
  decide

/-! ### Witnesses: reset, invariant, progress -/

theorem test_witness_ResetEventRestoresState :
    ({ Test.busy with events := [.reset, .engine] } : State).events = .reset :: [.engine] := rfl

/-- The Engine's turn with and without a command, and a transaction, from states that meet the invariant. -/
theorem test_witness_StepKeepsInvariant :
    (Test.busy.Inv ∧ ∃ t, step Test.busy = .next t) ∧ (Test.scene.Inv ∧ ∃ t, step Test.scene = .next t) :=
  ⟨⟨test_busy_invariant, _, rfl⟩, test_scene_invariant, _, rfl⟩

/-- With no event to come, with transactions to come and no reset, and with a reset to come. -/
theorem test_witness_PendingCommandCompletes :
    (Test.busy.pendV = true ∧ ∀ e ∈ Test.busy.events, e ≠ .reset) ∧
    (let s : State := { Test.busy with events := [.bus (.read 0x0C .word), .bus (.write 0x10 .word 0)] }
     s.pendV = true ∧ ∀ e ∈ s.events, e ≠ .reset) ∧
    ({ Test.busy with events := [.reset] } : State).pendV = true := by decide

end Sys2Proof.Machine
end

/-! SUPPORT. The statements of 00_scope.md: the step as one event (R18, R63), the matrix product over the field of
two elements (R17), the draws (R10), and the composer on supplied draws (R10, R11). -/

namespace Sys2Proof.Machine

/-! ### The step -/

/-- With no event to come, taking the next event changes nothing. -/
theorem State.eventTaken_of_nil {s : State} (h : s.events = []) : s.eventTaken = s := by
  simp only [State.eventTaken, State.setEvents, h, List.tail_nil]
  rw [← h]

/-- Taking the next event leaves the others. -/
theorem State.eventTaken_of_cons {s : State} {e : Event} {es : List Event} (h : s.events = e :: es) :
    s.eventTaken = s.setEvents es := by
  rw [State.eventTaken, h, List.tail_cons]

/-- When the Engine's turn comes next, a step is that turn (R63). -/
theorem step_of_engineNext {s : State} (h : s.EngineNext) : step s = engineTurn s.eventTaken := by
  rcases step_cases s with ⟨he, hs⟩ | ⟨es, he, hs⟩ | ⟨t, es, he, _⟩ | ⟨es, he, _⟩
  · rw [hs, State.eventTaken_of_nil he]
  · rw [hs, State.eventTaken_of_cons he]
  · simp [State.EngineNext, he] at h
  · simp [State.EngineNext, he] at h

/-- When a transaction comes next, a step is that transaction (R59, R63). -/
theorem step_of_bus {s : State} {t : Transaction} {es : List Event} (h : s.events = .bus t :: es) :
    step s = .next (transact s.eventTaken t) := by
  rw [State.eventTaken_of_cons h, step, takeEvent, h]

/-- When a reset comes next, a step is that reset (R63, R230). -/
theorem step_of_reset {s : State} {es : List Event} (h : s.events = .reset :: es) :
    step s = .next s.eventTaken.resetEvent := by
  rw [State.eventTaken_of_cons h, step, takeEvent, h]

/-- The Engine's turn executes the command PEND decodes to (R206). -/
theorem engineTurn_of_decode {s : State} {i : Instr} (hv : s.pendV = true) (hd : decode s.pend = .ok i) :
    engineTurn s = exec i s := by
  rw [engineTurn, if_pos hv, engineStep, hd]

/-- Settles O6: a step is the event that comes next, and the Engine's turn is `exec` of the decoded command. -/
theorem stepRunsDecodedCommand : Obligations.StepRunsDecodedCommand := by
  unfold Obligations.StepRunsDecodedCommand
  refine ⟨fun s i hs hv hd => ?_, fun s hs hv => ?_, fun s t es h => step_of_bus h, fun s es h => step_of_reset h⟩
  · rw [step_of_engineNext hs]
    exact engineTurn_of_decode (s := s.eventTaken) hv hd
  · rw [step_of_engineNext hs]
    exact engineTurn_idle (s := s.eventTaken) hv

/-! ### The matrix product over GF(2) -/

/-- A bit in the field of two elements is its number 0 or 1 there. -/
theorem toGF2_eq_natCast (N : Nat) (A : Mat) (i j : Fin N) : A.toGF2 N i j = (A.cellNat i j : ZMod 2) := by
  rw [Mat.toGF2, Mat.cellNat]
  cases A.cell i j <;> simp

/-- The GF(2) sum of products is the sum over the field of two elements (R106, R113). -/
theorem xorProducts_natCast (A B : Mat) (i j len : Nat) :
    ((xorProducts A B i j len).toNat : ZMod 2) =
      ∑ k ∈ Finset.range len, (A.cellNat i k : ZMod 2) * (B.cellNat k j : ZMod 2) := by
  simp only [xorProducts_toNat, Mat.cellNat, ZMod.natCast_mod, Nat.cast_sum, Nat.cast_mul]

/-- Settles O15: cell by cell, both sides are the sum over k of A[i][k]·B[k][j] in the field. -/
theorem matMulIsGF2Product : Obligations.MatMulIsGF2Product := by
  intro N A B hN
  ext i j
  have hcell : (matMul A B N).cell i j = xorProducts A B i j N := by
    rw [cell_matMul, decide_eq_true i.isLt, decide_eq_true (i.isLt.trans_le hN), Bool.true_and, Bool.true_and]
  rw [toGF2_eq_natCast, Mat.cellNat, hcell, xorProducts_natCast, Finset.sum_range, Matrix.mul_apply]
  simp only [toGF2_eq_natCast]

/-! ### The draws -/

/-- What the constraint of R10 says. -/
theorem pairValid_iff {N : Nat} {p : Nat × Nat} : pairValid N p = true ↔ p.1 < N ∧ p.2 < N ∧ p.1 ≠ p.2 := by
  simp [pairValid, and_assoc]

/-- Going on from index a by 1 to N - 1 places around a ring of N indices ends at another index (R141). -/
theorem add_one_add_mod_ne {N a u : Nat} (ha : a < N) (hu : u < N - 1) : (a + 1 + u) % N ≠ a := by
  rcases Nat.lt_or_ge (a + 1 + u) N with h | h
  · rw [Nat.mod_eq_of_lt h]; omega
  · rw [Nat.mod_eq_sub_mod h, Nat.mod_eq_of_lt (by omega)]; omega

/-- Whatever the source returns, the pair under the constraint is valid (R10, R141). -/
theorem pairValid_constrainPair {N : Nat} (hN : 2 ≤ N) (p : Nat × Nat) : pairValid N (constrainPair N p) = true := by
  by_cases hp : pairValid N p = true
  · rwa [constrainPair, if_pos hp]
  · have hm : p.1 % N < N := Nat.mod_lt _ (by omega)
    have hu : p.2 % (N - 1) < N - 1 := Nat.mod_lt _ (by omega)
    rw [constrainPair, if_neg hp, pairValid_iff]
    exact ⟨hm, Nat.mod_lt _ (by omega), (add_one_add_mod_ne hm hu).symm⟩

/-- Settles O24: a draw is a constrained pair, and a valid pair supplied is drawn as it is. -/
theorem drawIsEveryValidPair : Obligations.DrawIsEveryValidPair := by
  intro N hN
  constructor
  · intro d
    obtain ⟨p, hp⟩ := drawPair_fst N d
    rw [hp]
    exact pairValid_iff.1 (pairValid_constrainPair hN p)
  · intro m n hm hn hne d
    exact drawPair_supplied rfl (pairValid_iff.2 ⟨hm, hn, hne⟩)

/-! ### COMPOSE on supplied draws -/

/-- The pair that a draw of an entry's indices supplies. -/
def LogEntry.pair (e : LogEntry) : Nat × Nat := (e.m.toNat, e.n.toNat)

/-- The kind bits COMPOSE takes for the entries of a list: one each in MIXED mode, none otherwise (R154). -/
def kindBits (mode : Mode) (es : List LogEntry) : List Bool :=
  if mode = .mixed then es.map (fun e => decide (e.kind = .swap)) else []

/-- The kinds a mode can choose (R154). -/
def Mode.Admits (mode : Mode) (kind : OpKind) : Prop :=
  (mode = .add → kind = .addRow) ∧ (mode = .swap → kind = .swap)

/-- The indices of a valid entry meet the constraint of R10. -/
theorem LogEntry.Valid.pairValid {N : Nat} {e : LogEntry} (h : e.Valid N) : pairValid N e.pair = true := by
  obtain ⟨hm, hn, hne⟩ := h
  exact pairValid_iff.2 ⟨hm, hn, fun heq => hne (BitVec.eq_of_toNat_eq heq)⟩

/-- A valid entry needs two indices. -/
theorem LogEntry.Valid.two_le {N : Nat} {e : LogEntry} (h : e.Valid N) : 2 ≤ N := by
  obtain ⟨hm, hn, hne⟩ := pairValid_iff.1 h.pairValid
  omega

/-- An entry is made of its own kind and indices. -/
@[simp] theorem mkEntry_self (e : LogEntry) : mkEntry e.kind e.pair.1 e.pair.2 = e := by
  simp [mkEntry, LogEntry.pair]

/-- The bit that says whether a kind is Swap names that kind (R11). -/
@[simp] theorem kindOfBit_decide (k : OpKind) : kindOfBit (decide (k = .swap)) = k := by
  cases k <;> rfl

/-- ChooseKind answers an admitted entry's kind when its bit is supplied, and takes just that bit (R154). -/
theorem chooseKind_supplied {mode : Mode} {e : LogEntry} {es : List LogEntry} {ks : List Bool} {d : Draws}
    (he : mode.Admits e.kind) (hd : d.kindInputs = kindBits mode (e :: es) ++ ks) :
    chooseKind mode d = (e.kind, { d with kindInputs := kindBits mode es ++ ks }) := by
  cases mode with
  | add =>
    have hks : d.kindInputs = ks := hd
    rw [he.1 rfl, ← hks]
    rfl
  | swap =>
    have hks : d.kindInputs = ks := hd
    rw [he.2 rfl, ← hks]
    rfl
  | mixed =>
    have hks : d.kindInputs = decide (e.kind = .swap) :: (kindBits .mixed es ++ ks) := hd
    simp only [chooseKind, drawKind, hks, kindOfBit_decide]

/-- On supplied draws of valid, admitted entries the loop of COMPOSE applies and records those entries in order and
takes just those draws (R153, R154). -/
theorem composeLoop_supplied {N : Nat} {mode : Mode} {es : List LogEntry} {ps : List (Nat × Nat)} {ks : List Bool}
    {d : Draws} (X : Mat) (hvalid : ∀ e ∈ es, e.Valid N) (hkind : ∀ e ∈ es, mode.Admits e.kind)
    (hp : d.pairInputs = es.map LogEntry.pair ++ ps) (hk : d.kindInputs = kindBits mode es ++ ks) :
    composeLoop N mode es.length X d =
      { mat := applyAll N X es, entries := es, draws := { d with pairInputs := ps, kindInputs := ks } } := by
  induction es generalizing X d with
  | nil =>
    have hps : d.pairInputs = ps := hp
    have hks : d.kindInputs = ks := by simpa [kindBits] using hk
    subst hps hks
    rfl
  | cons e es ih =>
    rw [List.forall_mem_cons] at hvalid hkind
    have hpair : drawPair N d = (e.pair, { d with pairInputs := es.map LogEntry.pair ++ ps }) :=
      drawPair_supplied hp hvalid.1.pairValid
    have hchoose := chooseKind_supplied (d := { d with pairInputs := es.map LogEntry.pair ++ ps }) hkind.1 hk
    have hrest := ih (d := { d with pairInputs := es.map LogEntry.pair ++ ps, kindInputs := kindBits mode es ++ ks })
      (composerStep N X e) hvalid.2 hkind.2 rfl rfl
    simp only [List.length_cons, composeLoop, hpair, hchoose, mkEntry_self, hrest, applyAll, List.foldl_cons]

/-- COMPOSE completes with its writes when its checks pass (R153, R206). -/
theorem exec_compose_of_check {s : State} (rd : RegNo) (h : composeCheck s = .none) :
    exec (.compose rd) s = .next ((composeWrites s rd).finish .none) := by
  show unlessError (composeCheck s) s (composeWrites s rd) = _
  rw [h, unlessError_none]

/-- Settles O28: the checks pass, and the loop runs on the supplied draws. -/
theorem composeAdmitsEveryDraw : Obligations.ComposeAdmitsEveryDraw := by
  intro rd s es ps ks hvalid hadd hswap hiter hlog hp hk
  have hcheck : composeCheck s = .none := by
    refine composeCheck_none.2 ⟨?_, by omega⟩
    cases es with
    | nil => exact .inr hiter
    | cons e es => exact .inl (hvalid e List.mem_cons_self).two_le
  have hrun : composeRun s rd =
      { mat := applyAll s.N (s.M rd) es, entries := es,
        draws := { s.draws with pairInputs := ps, kindInputs := ks } } := by
    rw [composeRun, hiter]
    exact composeLoop_supplied (s.M rd) hvalid (fun e he => ⟨fun h => hadd h e he, fun h => hswap h e he⟩) hp hk
  refine ⟨_, exec_compose_of_check rd hcheck, ?_⟩
  simp [composeWrites, hrun]

end Sys2Proof.Machine

/-! SUPPORT. The statements of 10_state.md: what a command checks and what it writes (R22, R206), the invariant of the
machine (R24, R25, R30, R37), reset (R40), and the registers at the bus (R26, R29 to R35). -/

namespace Sys2Proof.Machine

/-! ### What a command checks and what it writes -/

/-- The code a command's checks give: NONE, or the error it completes with (R83, R87, R201). -/
def commandCheck : Instr → State → ErrCode
  | .swapgen _ m n, s => indexCheck s.N m n
  | .addgen _ m n, s => indexCheck s.N m n
  | .applyAdd _ m n, s => applyCheck s m n
  | .applySwap _ m n, s => applyCheck s m n
  | .compose _, s => composeCheck s
  | .reservedD _, _ => .illegalOpcode
  | .reservedE _, _ => .illegalOpcode
  | .reservedF _, _ => .illegalOpcode
  | _, _ => .none

/-- The state with a command's writes applied, when its checks pass (R22). -/
def commandWrites : Instr → State → State
  | .ident rd, s => s.setM rd (ident s.N)
  | .mov rd ra, s => s.setM rd (s.M ra)
  | .mul rd ra rb, s => s.setM rd (matMul (s.M ra) (s.M rb) s.N)
  | .mvmul rd ra rb, s => s.setV rd (matVec (s.M ra) (s.V rb) s.N)
  | .cmpeq ra rb, s => s.setEq (matEq (s.M ra) (s.M rb) s.N)
  | .swapgen rd m n, s => s.setM rd (swapMat s.N m n)
  | .addgen rd m n, s => s.setM rd (addMat s.N m n)
  | .applyAdd rd m n, s => applyEntry s rd (mkEntry .addRow m n)
  | .applySwap rd m n, s => applyEntry s rd (mkEntry .swap m n)
  | .compose rd, s => composeWrites s rd
  | .logclr, s => s.logClear
  | .keyderive rd, s => s.setM rd (keyOf s.N s.log)
  | .verify rd ra rb rc, s =>
    (s.setM rd (recovered s ra rb)).setEq (matEq (recovered s ra rb) (s.M rc) s.N)
  | .nop, s => s
  | .reservedD _, s => s
  | .reservedE _, s => s
  | .reservedF _, s => s

/-- Every command is its checks and then its writes (R201, R206). -/
theorem exec_eq_unlessError (i : Instr) (s : State) :
    exec i s = unlessError (commandCheck i s) s (commandWrites i s) := by
  cases i <;> rfl

/-- Everything a command can answer: its writes completed, or an error and nothing else (R203, R206). -/
theorem exec_next_cases {i : Instr} {s t : State} (h : exec i s = .next t) :
    (commandCheck i s = .none ∧ t = (commandWrites i s).finish .none) ∨
    (commandCheck i s ≠ .none ∧ t = s.finish (commandCheck i s)) := by
  rw [exec_eq_unlessError] at h
  rcases unlessError_cases (commandCheck i s) s (commandWrites i s) with ⟨hc, he⟩ | ⟨hc, he⟩
  · rw [he] at h; cases h; exact .inl ⟨hc, rfl⟩
  · rw [he] at h; cases h; exact .inr ⟨hc, rfl⟩

/-- The writes of no command reach CTRL, DIM, ITER, POLICY or PEND (R22). -/
theorem commandWrites_untouched (i : Instr) (s : State) : Untouched s (commandWrites i s) := by
  cases i <;> exact ⟨rfl, rfl, rfl, rfl, rfl, rfl, rfl⟩

/-- The writes of no command change the dimension (R22). -/
@[simp] theorem commandWrites_N (i : Instr) (s : State) : (commandWrites i s).N = s.N :=
  congrArg BitVec.toNat (commandWrites_untouched i s).dim

/-- HAZ is not among a command's writes (R22, R239). -/
theorem commandWrites_haz (i : Instr) (s : State) : (commandWrites i s).status.haz = s.status.haz := by
  cases i <;> rfl

/-- ERR is not among a command's writes: its completion sets it (R206). -/
theorem commandWrites_err (i : Instr) (s : State) : (commandWrites i s).status.err = s.status.err := by
  cases i <;> rfl

/-- The writes of a command leave every matrix register but its destination (R22). -/
theorem commandWrites_M_of_ne {i : Instr} {r : RegNo} (s : State) (h : destM i ≠ some r) :
    (commandWrites i s).M r = s.M r := by
  have hset (rd : RegNo) (X : Mat) (hne : some rd ≠ some r) : (s.setM rd X).M r = s.M r :=
    s.setM_M_ne X fun e => hne (congrArg some e.symm)
  cases i with
  | nop | mvmul | cmpeq | logclr | reservedD | reservedE | reservedF => rfl
  | ident rd | mov rd | mul rd | swapgen rd | addgen rd | applyAdd rd | applySwap rd | compose rd | keyderive rd
  | verify rd => exact hset rd _ h

/-- The writes of a command leave every vector register but its destination (R22). -/
theorem commandWrites_V_of_ne {i : Instr} {r : RegNo} (s : State) (h : destV i ≠ some r) :
    (commandWrites i s).V r = s.V r := by
  cases i with
  | mvmul rd => exact s.setV_V_ne _ fun e => h (congrArg some e.symm)
  | _ => rfl

/-- APPLY and COMPOSE append to the log (R25, R150). -/
theorem commandWrites_log_prefix {i : Instr} (s : State) (h : appendsLog i = true) :
    s.log <+: (commandWrites i s).log := by
  cases i with
  | applyAdd | applySwap | compose => exact List.prefix_append ..
  | _ => cases h

/-- The other commands but LOGCLR leave the log (R22, R25). -/
theorem commandWrites_log_eq {i : Instr} (s : State) (h : appendsLog i = false) (hc : i ≠ .logclr) :
    (commandWrites i s).log = s.log := by
  cases i with
  | applyAdd | applySwap | compose => cases h
  | logclr => exact absurd rfl hc
  | _ => rfl

/-- Only CMPEQ and VERIFY write EQ (R36). -/
theorem commandWrites_eq_of_not_writesEq {i : Instr} (s : State) (h : writesEq i = false) :
    (commandWrites i s).status.eq = s.status.eq := by
  cases i with
  | cmpeq | verify => cases h
  | _ => rfl

/-- Only COMPOSE takes draws (R38). -/
theorem commandWrites_draws {i : Instr} (s : State) (h : ∀ rd, i ≠ .compose rd) :
    (commandWrites i s).draws = s.draws := by
  cases i with
  | compose rd => exact absurd rfl (h rd)
  | _ => rfl

/-- Settles O40: the writes of each command stay within its row of R22, and an error writes nothing. -/
theorem commandsWriteOnlyDestinations : Obligations.CommandsWriteOnlyDestinations := by
  intro i s t h
  rcases exec_next_cases h with ⟨-, rfl⟩ | ⟨-, rfl⟩
  · obtain ⟨hctrl, hdim, hiter, hpolicy, hpend, hevents, hresponses⟩ := commandWrites_untouched i s
    refine ⟨fun r hr => commandWrites_M_of_ne s hr, fun r hr => commandWrites_V_of_ne s hr,
      fun ha => commandWrites_log_prefix s ha, fun ha hc => commandWrites_log_eq s ha hc,
      fun he => commandWrites_eq_of_not_writesEq s he, fun hd => commandWrites_draws s hd, ?_,
      hctrl, hdim, hiter, hpolicy, hpend, hevents, hresponses⟩
    exact commandWrites_haz i s
  · exact ⟨fun _ _ => rfl, fun _ _ => rfl, fun _ => List.prefix_rfl, fun _ _ => rfl, fun _ => rfl, fun _ => rfl,
      rfl, rfl, rfl, rfl, rfl, rfl, rfl, rfl⟩

/-! ### The data region of DIM (R24) -/

/-- The zero vector is in every region. -/
theorem vecInRegion_zero (N : Nat) : vecInRegion N 0 := fun _ _ => BitVec.getLsbD_zero

/-- A bit below N is in the region. -/
theorem vecInRegion_oneBit {N i : Nat} (h : i < N) : vecInRegion N (oneBit i) := by
  intro j hj
  rw [getLsbD_oneBit, decide_eq_false (by omega : j ≠ i), Bool.and_false]

/-- The OR of two vectors in the region is in the region. -/
theorem vecInRegion_or {N : Nat} {v w : Word} (hv : vecInRegion N v) (hw : vecInRegion N w) :
    vecInRegion N (v ||| w) := by
  intro j hj
  rw [BitVec.getLsbD_or, hv j hj, hw j hj, Bool.or_self]

/-- The XOR of two vectors in the region is in the region. -/
theorem vecInRegion_xor {N : Nat} {v w : Word} (hv : vecInRegion N v) (hw : vecInRegion N w) :
    vecInRegion N (v ^^^ w) := by
  intro j hj
  rw [BitVec.getLsbD_xor, hv j hj, hw j hj, Bool.xor_self]

/-- Masked data is in the region (R55, R56). -/
theorem vecInRegion_and_colmask (d : Word) (N : Nat) : vecInRegion N (d &&& colmask N) := by
  intro j hj
  rw [getLsbD_and_colmask, decide_eq_false (by omega), Bool.and_false]

/-- A matrix-vector product is in the region (R109). -/
theorem vecInRegion_matVec (A : Mat) (v : Word) (N : Nat) : vecInRegion N (matVec A v N) := by
  intro j hj
  rw [getLsbD_matVec, decide_eq_false (by omega : ¬ j < N), Bool.and_false, Bool.false_and]

/-- A matrix is in the region when its rows are, and those past N are 0. -/
theorem Mat.inRegion_iff_rows {N : Nat} {A : Mat} :
    A.InRegion N ↔ (∀ i, vecInRegion N (A.row i)) ∧ ∀ i, N ≤ i → A.row i = 0 := by
  constructor
  · exact fun h => ⟨fun i j hj => h i j (.inr hj), fun i hi => word_ext fun j _ => by
      exact (h i j (.inl hi)).trans BitVec.getLsbD_zero.symm⟩
  · rintro ⟨hcol, hrow⟩ i j (hi | hj)
    · rw [Mat.cell, hrow i hi]; exact BitVec.getLsbD_zero
    · exact hcol i j hj

/-- The zero matrix is in every region. -/
theorem Mat.inRegion_zero (N : Nat) : Mat.zero.InRegion N := fun i j _ => Mat.cell_zero i j

/-- The matrix functions fill the rows below N only: rows in the region make a matrix in the region. -/
theorem Mat.inRegion_ofRows {N : Nat} {f : Nat → Word} (h : ∀ i, i < N → vecInRegion N (f i)) :
    (Mat.ofRows fun i => if i < N then f i else 0).InRegion N := by
  rw [Mat.inRegion_iff_rows]
  constructor
  · intro i
    rw [Mat.row_ofRows]
    split
    · split
      · exact h i ‹_›
      · exact vecInRegion_zero N
    · exact vecInRegion_zero N
  · intro i hi
    rw [Mat.row_ofRows, if_neg (by omega : ¬ i < N), ite_self]

/-- The identity is in the region (R107). -/
theorem inRegion_ident (N : Nat) : (ident N).InRegion N :=
  Mat.inRegion_ofRows fun _ hi => vecInRegion_oneBit hi

/-- Swap(m, n) of indices in range is in the region (R134). -/
theorem inRegion_swapMat {N m n : Nat} (hm : m < N) (hn : n < N) : (swapMat N m n).InRegion N := by
  refine Mat.inRegion_ofRows fun i hi => ?_
  split
  · exact vecInRegion_oneBit hn
  · split
    · exact vecInRegion_oneBit hm
    · exact vecInRegion_oneBit hi

/-- AddRow(m, n) of indices in range is in the region (R135). -/
theorem inRegion_addMat {N m n : Nat} (hm : m < N) (hn : n < N) : (addMat N m n).InRegion N := by
  refine Mat.inRegion_ofRows fun i hi => ?_
  split
  · exact vecInRegion_or (vecInRegion_oneBit hm) (vecInRegion_oneBit hn)
  · exact vecInRegion_oneBit hi

/-- The matrix of a valid entry is in the region (R133). -/
theorem inRegion_elem {N : Nat} {e : LogEntry} (h : e.Valid N) : (elem N e).InRegion N := by
  obtain ⟨hm, hn, -⟩ := h
  unfold elem
  split
  · exact inRegion_swapMat hm hn
  · exact inRegion_addMat hm hn

/-- An XOR of rows of a matrix in the region is in the region. -/
theorem vecInRegion_xorSelected {N : Nat} {B : Mat} (hB : B.InRegion N) (sel : Word) (len : Nat) :
    vecInRegion N (xorSelected B sel len) := by
  induction len with
  | zero => exact vecInRegion_zero N
  | succ len ih =>
    rw [xorSelected]
    split
    · exact vecInRegion_xor ih ((Mat.inRegion_iff_rows.1 hB).1 len)
    · exact ih

/-- A product is in the region when its right factor is (R106). -/
theorem inRegion_matMul {N : Nat} {B : Mat} (A : Mat) (hB : B.InRegion N) : (matMul A B N).InRegion N :=
  Mat.inRegion_ofRows fun i _ => vecInRegion_xorSelected hB (A.row i) N

/-- Composer steps stay in the region (R151). -/
theorem inRegion_applyAll {N : Nat} {X : Mat} (hX : X.InRegion N) (es : List LogEntry) :
    (applyAll N X es).InRegion N :=
  List.foldlRecOn (motive := fun Y => Y.InRegion N) es (composerStep N) hX
    fun _ hY e _ => inRegion_matMul (elem N e) hY

/-- The loop of KEYDERIVE stays in the region on valid entries (R180). -/
theorem inRegion_keyLoop {N : Nat} {acc : Mat} {es : List LogEntry} (hacc : acc.InRegion N)
    (hes : ∀ e ∈ es, e.Valid N) : (keyLoop N acc es).InRegion N := by
  induction es generalizing acc with
  | nil => exact hacc
  | cons e es ih =>
    rw [List.forall_mem_cons] at hes
    rw [keyLoop]
    exact ih (inRegion_matMul acc (inRegion_elem hes.1)) hes.2

/-- A row replaced by masked data keeps the region (R55). -/
theorem Mat.InRegion.setRow {N : Nat} {A : Mat} {i : Fin 32} (h : A.InRegion N) (hi : i.val < N) (d : Word) :
    (A.setRow i (d &&& colmask N)).InRegion N := by
  obtain ⟨hcol, hrow⟩ := Mat.inRegion_iff_rows.1 h
  rw [Mat.inRegion_iff_rows]
  refine ⟨fun k => ?_, fun k hk => ?_⟩
  · rw [Mat.row_setRow]
    split
    · exact vecInRegion_and_colmask d N
    · exact hcol k
  · rw [Mat.row_setRow, if_neg (by omega : k ≠ i.val), hrow k hk]

/-! ### Valid log entries (R130, R158) -/

/-- The indices of an entry, when they fit their fields (R26). -/
theorem toNat_mkEntry {m n : Nat} (kind : OpKind) (hm : m < 32) (hn : n < 32) :
    (mkEntry kind m n).m.toNat = m ∧ (mkEntry kind m n).n.toNat = n :=
  ⟨Nat.mod_eq_of_lt hm, Nat.mod_eq_of_lt hn⟩

/-- The entry of a valid pair is valid (R26, R152). -/
theorem mkEntry_valid {N m n : Nat} (kind : OpKind) (hN : N ≤ 32) (hm : m < N) (hn : n < N) (hne : m ≠ n) :
    (mkEntry kind m n).Valid N := by
  obtain ⟨hm', hn'⟩ := toNat_mkEntry kind (hm.trans_le hN) (hn.trans_le hN)
  refine ⟨hm'.trans_lt hm, hn'.trans_lt hn, fun e => hne ?_⟩
  exact hm'.symm.trans ((congrArg BitVec.toNat e).trans hn')

/-- Every entry the loop of COMPOSE records is valid (R153, R158). -/
theorem composeLoop_valid {N : Nat} (h2 : 2 ≤ N) (h32 : N ≤ 32) (mode : Mode) (k : Nat) (X : Mat) (d : Draws) :
    ∀ e ∈ (composeLoop N mode k X d).entries, e.Valid N := by
  intro e he
  obtain ⟨p, d', rfl⟩ := composeLoop_entries N mode k X d e he
  obtain ⟨hm, hn, hne⟩ := pairValid_iff.1 (pairValid_constrainPair h2 p)
  exact mkEntry_valid _ h32 hm hn hne

/-! ### The invariant, operation by operation -/

/-- A matrix in the region written to a register keeps the data invariant. -/
theorem State.DataOk.setM {s : State} {X : Mat} (h : s.DataOk) (rd : RegNo) (hX : X.InRegion s.N) :
    (s.setM rd X).DataOk := by
  obtain ⟨hM, hV⟩ := h
  refine ⟨fun r => ?_, hV⟩
  by_cases hr : r = rd
  · subst hr; rw [State.setM_M_self]; exact hX
  · rw [State.setM_M_ne s X hr]; exact hM r

/-- A vector in the region written to a register keeps the data invariant. -/
theorem State.DataOk.setV {s : State} {v : Word} (h : s.DataOk) (rd : RegNo) (hv : vecInRegion s.N v) :
    (s.setV rd v).DataOk := by
  obtain ⟨hM, hV⟩ := h
  refine ⟨hM, fun r => ?_⟩
  by_cases hr : r = rd
  · subst hr; rw [State.setV_V_self]; exact hv
  · rw [State.setV_V_ne s v hr]; exact hV r

/-- Valid entries that fit keep the log invariant (R150, R158). -/
theorem State.LogOk.logAppend {s : State} {es : List LogEntry} (h : s.LogOk) (hlen : s.loglen + es.length ≤ 1024)
    (hes : ∀ e ∈ es, e.Valid s.N) : (s.logAppend es).LogOk := by
  refine ⟨?_, fun e he => ?_⟩
  · rw [State.logAppend_loglen]; exact hlen
  · rcases List.mem_append.1 he with he | he
    · exact h.2 e he
    · exact hes e he

/-- The writes of a command whose checks pass keep the data invariant (R24). -/
theorem commandWrites_dataOk {i : Instr} {s : State} (h : s.DataOk) (hlog : s.LogOk)
    (hc : commandCheck i s = .none) : (commandWrites i s).DataOk := by
  cases i with
  | nop | cmpeq | logclr | reservedD | reservedE | reservedF => exact h
  | ident rd => exact h.setM rd (inRegion_ident s.N)
  | mov rd ra => exact h.setM rd (h.1 ra)
  | mul rd ra rb => exact h.setM rd (inRegion_matMul (s.M ra) (h.1 rb))
  | mvmul rd ra rb => exact h.setV rd (vecInRegion_matVec (s.M ra) (s.V rb) s.N)
  | swapgen rd m n =>
    obtain ⟨hm, hn, -⟩ := indexCheck_none.1 hc
    exact h.setM rd (inRegion_swapMat hm hn)
  | addgen rd m n =>
    obtain ⟨hm, hn, -⟩ := indexCheck_none.1 hc
    exact h.setM rd (inRegion_addMat hm hn)
  | applyAdd rd | applySwap rd => exact h.setM rd (inRegion_matMul _ (h.1 rd))
  | compose rd =>
    refine State.DataOk.setM h rd ?_
    rw [composeRun, composeLoop_mat]
    exact inRegion_applyAll (h.1 rd) _
  | keyderive rd => exact h.setM rd (inRegion_keyLoop (inRegion_ident s.N) hlog.2)
  | verify rd ra rb => exact h.setM rd (inRegion_matMul (s.M ra) (h.1 rb))

/-- The entry of an APPLY whose checks pass keeps the log invariant (R152). -/
theorem State.LogOk.applyEntry {s : State} {m n : Nat} (h : s.LogOk) (hN : s.N ≤ 32)
    (hc : applyCheck s m n = .none) (rd : RegNo) (kind : OpKind) :
    (applyEntry s rd (mkEntry kind m n)).LogOk := by
  obtain ⟨⟨hm, hn, hne⟩, hfull⟩ := applyCheck_none.1 hc
  have hroom : s.loglen + 1 ≤ 1024 := Nat.lt_of_le_of_ne h.1 hfull
  exact State.LogOk.logAppend (s := s.setM rd _) h hroom
    (List.forall_mem_singleton.2 (mkEntry_valid kind hN hm hn hne))

/-- The entries of a COMPOSE whose checks pass keep the log invariant (R153, R158). -/
theorem State.LogOk.composeWrites {s : State} (h : s.LogOk) (hN : s.N ≤ 32) (hc : composeCheck s = .none)
    (rd : RegNo) : (composeWrites s rd).LogOk := by
  obtain ⟨hdim, hroom⟩ := composeCheck_none.1 hc
  have hlen : (composeRun s rd).entries.length = s.iter.toNat := composeLoop_length ..
  have hvalid : ∀ e ∈ (composeRun s rd).entries, e.Valid s.N := by
    rcases hdim with h2 | hK
    · exact composeLoop_valid h2 hN _ _ _ _
    · rw [List.length_eq_zero_iff.1 (hlen.trans hK)]
      exact List.forall_mem_nil _
  exact State.LogOk.logAppend (s := s.setM rd _) h (hlen ▸ hroom) hvalid

/-- The writes of a command whose checks pass keep the log invariant (R25, R158). -/
theorem commandWrites_logOk {i : Instr} {s : State} (h : s.LogOk) (hN : s.N ≤ 32)
    (hc : commandCheck i s = .none) : (commandWrites i s).LogOk := by
  cases i with
  | applyAdd rd | applySwap rd => exact h.applyEntry hN hc rd _
  | compose rd => exact h.composeWrites hN hc rd
  | logclr => exact ⟨Nat.zero_le _, List.forall_mem_nil _⟩
  | _ => exact h

/-- A completion establishes the handshake, whatever its code, when ERR was 0 (R206). -/
theorem State.handshakeOk_finish {s : State} (h : s.status.err = false) (c : ErrCode) :
    (s.finish c).HandshakeOk := by
  refine ⟨rfl, nofun, fun he => ?_⟩
  rw [State.finish_err, h, Bool.false_or] at he
  exact of_decide_eq_true he

/-- A running command has ERR = 0 (R205, R237). -/
theorem State.HandshakeOk.err_of_pendV {s : State} (h : s.HandshakeOk) (hv : s.pendV = true) :
    s.status.err = false := by
  obtain ⟨hbusy, hrun, -⟩ := h
  exact (hrun (hbusy.symm.trans hv)).2.1

/-- Executing a command keeps the invariant (R24, R25, R158, R206). -/
theorem State.Inv.exec {i : Instr} {s t : State} (h : s.Inv) (hv : s.pendV = true) (ht : exec i s = .next t) :
    t.Inv := by
  have herr : s.status.err = false := h.handshakeOk.err_of_pendV hv
  rcases exec_next_cases ht with ⟨hc, rfl⟩ | ⟨-, rfl⟩
  · refine ⟨?_, commandWrites_dataOk h.dataOk h.logOk hc, commandWrites_logOk h.logOk h.dimOk.2 hc,
      State.handshakeOk_finish ?_ _⟩
    · rw [State.DimOk, State.finish_N, commandWrites_N]; exact h.dimOk
    · exact (commandWrites_err i s).trans herr
  · exact ⟨h.dimOk, h.dataOk, h.logOk, State.handshakeOk_finish herr _⟩

/-- The Engine's turn keeps the invariant (R206). -/
theorem State.Inv.engineTurn {s t : State} (h : s.Inv) (ht : engineTurn s = .next t) : t.Inv := by
  cases hv : s.pendV with
  | false => rw [engineTurn_idle hv] at ht; cases ht; exact h
  | true =>
    rcases engineTurn_pending hv with ⟨i, -, hi⟩ | ⟨-, hi⟩
    · exact h.exec hv (hi.symm.trans ht)
    · rw [hi] at ht
      cases ht
      exact ⟨h.dimOk, h.dataOk, h.logOk, State.handshakeOk_finish (h.handshakeOk.err_of_pendV hv) _⟩

/-- Breaking a BUSY rule keeps the invariant (R239). -/
theorem State.Inv.setHaz {s : State} (h : s.Inv) : s.setHaz.Inv := ⟨h.dimOk, h.dataOk, h.logOk, h.handshakeOk⟩

/-- Answering the host keeps the invariant. -/
theorem State.Inv.answer {s : State} (h : s.Inv) (r : Reply) : (s.answer r).Inv :=
  ⟨h.dimOk, h.dataOk, h.logOk, h.handshakeOk⟩

/-- Taking an event keeps the invariant. -/
theorem State.Inv.setEvents {s : State} (h : s.Inv) (es : List Event) : (s.setEvents es).Inv :=
  ⟨h.dimOk, h.dataOk, h.logOk, h.handshakeOk⟩

/-- Accepting a command keeps the invariant (R205, R237). -/
theorem State.Inv.accept {s : State} (h : s.Inv) (d : Word) : (s.accept d).Inv :=
  ⟨h.dimOk, h.dataOk, h.logOk, rfl, fun _ => ⟨rfl, rfl, rfl⟩, nofun⟩

/-- A STATUS write keeps the invariant: it only clears (R33). -/
theorem State.Inv.clearedBy {s : State} (h : s.Inv) (d : Word) :
    ({ s with status := s.status.clearedBy d } : State).Inv := by
  obtain ⟨hbusy, hrun, herr⟩ := h.handshakeOk
  refine ⟨h.dimOk, h.dataOk, h.logOk, hbusy, fun hb => ?_, fun he => herr (Bool.and_elim_left he)⟩
  obtain ⟨hdone, herr0, hcode⟩ := hrun hb
  refine ⟨?_, ?_, hcode⟩
  · rw [Status.clearedBy, hdone, Bool.false_and]
  · rw [Status.clearedBy, herr0, Bool.false_and]

/-- A new run of a legal dimension meets the invariant (R30). -/
theorem State.Inv.newRun {s : State} {d : BitVec 6} (h : s.Inv) (hd : 1 ≤ d.toNat ∧ d.toNat ≤ 32) :
    (s.newRun d).Inv := by
  refine ⟨hd, ⟨fun r => ?_, fun r => ?_⟩, ⟨Nat.zero_le _, List.forall_mem_nil _⟩, h.handshakeOk⟩
  · rw [State.newRun_M]; exact Mat.inRegion_zero _
  · rw [State.newRun_V]; exact vecInRegion_zero _

/-- A DIM write while idle keeps the invariant (R30). -/
theorem State.Inv.writeDim {s : State} (h : s.Inv) (d : Word) : (writeDim s d).Inv := by
  unfold Machine.writeDim
  split
  · rename_i hd
    refine h.newRun ?_
    rwa [BitVec.toNat_setWidth, Nat.mod_eq_of_lt (by omega)]
  · exact h

/-- A matrix window write while idle keeps the invariant: it is masked (R24, R55). -/
theorem State.Inv.writeMatrixRow {s : State} (h : s.Inv) (r : RegNo) (i : Fin 32) (d : Word) :
    (writeMatrixRow s r i d).Inv := by
  unfold Machine.writeMatrixRow
  split
  · exact ⟨h.dimOk, h.dataOk.setM r ((h.dataOk.1 r).setRow ‹_› d), h.logOk, h.handshakeOk⟩
  · exact h

/-- A vector window write while idle keeps the invariant: it is masked (R24, R56). -/
theorem State.Inv.writeVector {s : State} (h : s.Inv) (r : RegNo) (d : Word) :
    (s.setV r (d &&& colmask s.N)).Inv :=
  ⟨h.dimOk, h.dataOk.setV r (vecInRegion_and_colmask d s.N), h.logOk, h.handshakeOk⟩

/-- A guarded write keeps the invariant when the write while idle does (R55). -/
theorem State.Inv.guardedWrite {s w : State} (h : s.Inv) (hw : w.Inv) : (guardedWrite s w).Inv := by
  rw [guardedWrite_eq]
  split
  · exact h.setHaz
  · exact hw

/-- Every write of a mapped offset keeps the invariant. -/
theorem State.Inv.writeTarget {s : State} (h : s.Inv) (d : Word) (t : Target) : (writeTarget s d t).Inv := by
  cases t with
  | id | param | loglen | logEntry => exact h
  | ctrl => exact ⟨h.dimOk, h.dataOk, h.logOk, h.handshakeOk⟩
  | status => exact h.clearedBy d
  | cmd => exact h.guardedWrite (h.accept d)
  | dim => exact h.guardedWrite (h.writeDim d)
  | iter | policy => exact h.guardedWrite ⟨h.dimOk, h.dataOk, h.logOk, h.handshakeOk⟩
  | matrixRow r i => exact h.guardedWrite (h.writeMatrixRow r i d)
  | vector r => exact h.guardedWrite (h.writeVector r d)

/-- Every host transaction keeps the invariant (R50). -/
theorem State.Inv.transact {s : State} (h : s.Inv) (tr : Transaction) : (transact s tr).Inv := by
  cases tr with
  | read a size =>
    refine State.Inv.answer ?_ _
    rcases memRead_state s a size with hr | ⟨hr, -⟩ <;> rw [hr]
    · exact h
    · exact h.setHaz
  | write a size d =>
    refine State.Inv.answer ?_ _
    rcases memWrite_state s a size d with hw | ⟨t, -, hw⟩ <;> rw [hw]
    · exact h
    · exact h.writeTarget d t

/-- A reset meets the invariant, whatever came before (R40, R230). -/
theorem State.inv_resetEvent (s : State) : s.resetEvent.Inv := by
  refine ⟨?_, ⟨fun r => ?_, fun r => ?_⟩, ⟨Nat.zero_le _, List.forall_mem_nil _⟩,
    rfl, nofun, nofun⟩
  · rw [State.DimOk, State.resetEvent_N]; decide
  · rw [State.resetEvent_M]; exact Mat.inRegion_zero _
  · rw [State.resetEvent_V]; exact vecInRegion_zero _

/-- Settles O58: the state after reset is a reset of itself. -/
theorem resetMeetsInvariant : Obligations.ResetMeetsInvariant := State.inv_resetEvent State.reset

/-- Settles O59: a step is the Engine's turn, a transaction or a reset, and each keeps the invariant. -/
theorem stepKeepsInvariant : Obligations.StepKeepsInvariant := by
  intro s t h ht
  rcases step_cases s with ⟨-, hs⟩ | ⟨es, -, hs⟩ | ⟨tr, es, -, hs⟩ | ⟨es, -, hs⟩ <;> rw [hs] at ht
  · exact h.engineTurn ht
  · exact (h.setEvents es).engineTurn ht
  · cases ht; exact (h.setEvents es).transact tr
  · cases ht; exact State.inv_resetEvent _

/-! ### Words and their fields -/

/-- The KIND bit of a kind (R26). -/
def OpKind.bit : OpKind → Nat
  | .swap => 1
  | .addRow => 0

/-- The KIND bit is a bit. -/
theorem OpKind.bit_lt (kind : OpKind) : kind.bit < 2 := by cases kind <;> decide

/-- The log word of an entry made of indices that fit is its fields at their places (R26). -/
theorem toNat_toWord_mkEntry {m n : Nat} (kind : OpKind) (hm : m < 32) (hn : n < 32) :
    (mkEntry kind m n).toWord.toNat = kind.bit * 2 ^ 10 + m * 2 ^ 5 + n := by
  obtain ⟨hm', hn'⟩ := toNat_mkEntry kind hm hn
  have hword : (mkEntry kind m n).toWord =
      BitVec.ofNat 32 (kind.bit * 2 ^ 10 + (mkEntry kind m n).m.toNat * 2 ^ 5 + (mkEntry kind m n).n.toNat) := by
    cases kind <;> rfl
  have hk := kind.bit_lt
  rw [hword, hm', hn', BitVec.toNat_ofNat]
  exact Nat.mod_eq_of_lt (by omega)

/-- The low eleven bits of a word of fields are its fields k, m and n (R81). -/
theorem toNat_encodeFields_and_low {op rd ra rb rc k m n : Nat} (hk : k < 2) (hm : m < 32) (hn : n < 32) :
    (encodeFields op rd ra rb rc k m n &&& 0x7FF).toNat = k * 2 ^ 10 + m * 2 ^ 5 + n := by
  have hmask : (0x7FF : Word).toNat = 2 ^ 11 - 1 := rfl
  rw [BitVec.toNat_and, hmask, Nat.and_two_pow_sub_one_eq_mod, encodeFields, BitVec.toNat_ofNat]
  omega

/-- The log word of an entry is the low eleven bits of any command word with its fields (R26, R81). -/
theorem toWord_mkEntry_eq {op rd ra rb rc m n : Nat} (kind : OpKind) (hm : m < 32) (hn : n < 32) :
    (mkEntry kind m n).toWord = encodeFields op rd ra rb rc kind.bit m n &&& 0x7FF :=
  BitVec.eq_of_toNat_eq
    ((toNat_toWord_mkEntry kind hm hn).trans (toNat_encodeFields_and_low kind.bit_lt hm hn).symm)

/-- Settles O26: APPLY's command word carries its entry's fields in bits [10:0]. -/
theorem appliedEntryIsCommandBits : Obligations.AppliedEntryIsCommandBits :=
  fun _ _ _ hm hn => ⟨toWord_mkEntry_eq .swap hm hn, toWord_mkEntry_eq .addRow hm hn⟩

/-- Settles O56: each register of the table of R40, read off the reset state. -/
theorem resetValues : Obligations.ResetValues :=
  ⟨State.resetEvent_M State.reset, State.resetEvent_V State.reset, rfl, by decide, by decide, rfl, rfl, by decide, rfl,
    rfl, rfl, rfl⟩

/-! ### What a command reads (R22) -/

section SameInputs

variable {s s' : State}

/-- States that agree on the inputs agree on the dimension. -/
theorem SameInputs.N_eq (h : SameInputs s s') : s.N = s'.N := congrArg BitVec.toNat h.dim

/-- States that agree on the inputs agree on every matrix register. -/
theorem SameInputs.M_eq (h : SameInputs s s') (r : RegNo) : s.M r = s'.M r :=
  congrArg (fun mats : Vector Mat 8 => mats[r.val]) h.mats

/-- States that agree on the inputs agree on every vector register. -/
theorem SameInputs.V_eq (h : SameInputs s s') (r : RegNo) : s.V r = s'.V r :=
  congrArg (fun vecs : Vector Word 8 => vecs[r.val]) h.vecs

/-- States that agree on the inputs agree on LOGLEN. -/
theorem SameInputs.loglen_eq (h : SameInputs s s') : s.loglen = s'.loglen := congrArg List.length h.log

/-- The same value written to the same matrix register keeps the agreement. -/
theorem SameInputs.setM (h : SameInputs s s') (r : RegNo) (X : Mat) : SameInputs (s.setM r X) (s'.setM r X) :=
  { h with mats := congrArg (fun mats : Vector Mat 8 => mats.set r.val X) h.mats }

/-- The same value written to the same vector register keeps the agreement. -/
theorem SameInputs.setV (h : SameInputs s s') (r : RegNo) (v : Word) : SameInputs (s.setV r v) (s'.setV r v) :=
  { h with vecs := congrArg (fun vecs : Vector Word 8 => vecs.set r.val v) h.vecs }

/-- The same entries appended keep the agreement. -/
theorem SameInputs.logAppend (h : SameInputs s s') (es : List LogEntry) :
    SameInputs (s.logAppend es) (s'.logAppend es) :=
  { h with log := congrArg (· ++ es) h.log }

/-- The same draws taken keep the agreement. -/
theorem SameInputs.setDraws (h : SameInputs s s') (d : Draws) : SameInputs (s.setDraws d) (s'.setDraws d) :=
  { h with draws := rfl }

/-- An emptied log keeps the agreement. -/
theorem SameInputs.logClear (h : SameInputs s s') : SameInputs s.logClear s'.logClear :=
  { h with log := rfl }

/-- EQ is no input. -/
theorem SameInputs.setEq (h : SameInputs s s') (b b' : Bool) : SameInputs (s.setEq b) (s'.setEq b') :=
  { h with }

/-- STATUS is no input: a completion keeps the agreement. -/
theorem SameInputs.finish (h : SameInputs s s') (c c' : ErrCode) : SameInputs (s.finish c) (s'.finish c') :=
  { h with }

/-- A command's checks read the inputs only. -/
theorem SameInputs.commandCheck_eq (h : SameInputs s s') (i : Instr) : commandCheck i s = commandCheck i s' := by
  cases i with
  | swapgen | addgen => simp only [commandCheck, h.N_eq]
  | applyAdd | applySwap => simp only [commandCheck, applyCheck, h.N_eq, h.loglen_eq]
  | compose => simp only [commandCheck, composeCheck, h.N_eq, h.iter, h.loglen_eq]
  | _ => rfl

/-- The loop of COMPOSE reads the inputs only (R153). -/
theorem SameInputs.composeRun_eq (h : SameInputs s s') (rd : RegNo) : composeRun s rd = composeRun s' rd := by
  simp only [composeRun, h.N_eq, h.mode, h.iter, h.M_eq, h.draws]

/-- A command's writes to the inputs come from the inputs only (R22). -/
theorem SameInputs.commandWrites (h : SameInputs s s') (i : Instr) :
    SameInputs (commandWrites i s) (commandWrites i s') := by
  cases i with
  | nop | reservedD | reservedE | reservedF => exact h
  | logclr => exact h.logClear
  | cmpeq => exact h.setEq _ _
  | ident | mov | mul | swapgen | addgen =>
    simp only [Machine.commandWrites, h.N_eq, h.M_eq]
    exact h.setM _ _
  | mvmul =>
    simp only [Machine.commandWrites, h.N_eq, h.M_eq, h.V_eq]
    exact h.setV _ _
  | applyAdd | applySwap =>
    simp only [Machine.commandWrites, applyEntry, h.N_eq, h.M_eq]
    exact (h.setM _ _).logAppend _
  | compose rd =>
    simp only [Machine.commandWrites, composeWrites, h.composeRun_eq]
    exact ((h.setM _ _).logAppend _).setDraws _
  | keyderive =>
    simp only [Machine.commandWrites, h.N_eq, h.log]
    exact h.setM _ _
  | verify =>
    simp only [Machine.commandWrites, recovered, h.N_eq, h.M_eq]
    exact (h.setM _ _).setEq _ _

/-- CMPEQ and VERIFY compute EQ from the inputs only (R36). -/
theorem SameInputs.commandWrites_eq (h : SameInputs s s') {i : Instr} (hi : writesEq i = true) :
    (Machine.commandWrites i s).status.eq = (Machine.commandWrites i s').status.eq := by
  cases i with
  | cmpeq ra rb =>
    show matEq (s.M ra) (s.M rb) s.N = matEq (s'.M ra) (s'.M rb) s'.N
    rw [h.M_eq ra, h.M_eq rb, h.N_eq]
  | verify rd ra rb rc =>
    show matEq (matMul (s.M ra) (s.M rb) s.N) (s.M rc) s.N = matEq (matMul (s'.M ra) (s'.M rb) s'.N) (s'.M rc) s'.N
    rw [h.M_eq ra, h.M_eq rb, h.M_eq rc, h.N_eq]
  | _ => cases hi

end SameInputs

/-- The commands that write EQ have no check that fails (R105, R185). -/
theorem commandCheck_of_writesEq {i : Instr} (s : State) (h : writesEq i = true) : commandCheck i s = .none := by
  cases i with
  | cmpeq | verify => rfl
  | _ => cases h

/-- Settles O41: the checks agree, so both states complete with the same code, and the writes agree. -/
theorem commandsReadOnlyInputs : Obligations.CommandsReadOnlyInputs := by
  intro i s s' t t' h ht ht'
  have hcheck := h.commandCheck_eq i
  rcases exec_next_cases ht with ⟨hc, rfl⟩ | ⟨hc, rfl⟩ <;>
    rcases exec_next_cases ht' with ⟨hc', rfl⟩ | ⟨hc', rfl⟩
  · exact ⟨(h.commandWrites i).finish _ _, rfl, h.commandWrites_eq⟩
  · exact absurd (hcheck.symm.trans hc) hc'
  · exact absurd (hcheck.trans hc') hc
  · exact ⟨h.finish _ _, hcheck, fun he => absurd (commandCheck_of_writesEq s he) hc⟩

/-! ### The address space (R54, R60) -/

/-- A control and status register stands at its word (R54). -/
theorem csrTarget_eq_some {word : Nat} {x : Target} (h : csrTarget word = some x) : x.address.toNat = 4 * word := by
  unfold csrTarget at h
  split at h <;> cases h <;> rfl

/-- A mapped offset is one of the four bytes at its target's offset (R54, R60). -/
theorem target_eq_some {a : Addr} {x : Target} (h : target a = some x) :
    x.address.toNat ≤ a.toNat ∧ a.toNat < x.address.toNat + 4 := by
  unfold target at h
  split at h
  · cases h; rw [Target.address_matrixRow_toNat]; dsimp only; omega
  · split at h
    · cases h; rw [Target.address_vector_toNat]; dsimp only; omega
    · split at h
      · cases h; rw [Target.address_logEntry_toNat]; dsimp only; omega
      · rw [csrTarget_eq_some h]; omega

/-- A byte that differs between two states is in a word that differs (R60). -/
theorem peekByte_ne {s t : State} {a : Addr} (h : peekByte t a ≠ peekByte s a) :
    ∃ x, target a = some x ∧ peek t x ≠ peek s x := by
  cases hx : target a with
  | none => simp [peekByte, hx] at h
  | some x => exact ⟨x, rfl, fun e => h (by simp only [peekByte, hx, e])⟩

/-- A log entry the log keeps is shown as before (R57). -/
theorem logWindow_of_prefix {s t : State} {i : Fin 1024} (h : s.log <+: t.log) (hi : i.val < s.loglen) :
    logWindow t i = logWindow s i := by
  obtain ⟨es, hes⟩ := h
  rw [logWindow, logWindow, ← hes, List.getElem?_append_left hi]

/-- The targets whose word a command may change: STATUS, its destinations, and what it writes of the log (R22). -/
def MayChange (i : Instr) (s : State) : Target → Prop
  | .status => True
  | .matrixRow r _ => destM i = some r
  | .vector r => destV i = some r
  | .loglen => appendsLog i = true ∨ i = .logclr
  | .logEntry k => (appendsLog i = true ∧ s.loglen ≤ k.val) ∨ i = .logclr
  | _ => False

/-- A command changes no word but those: every other target shows a field it leaves (R22, R54). -/
theorem mayChange_of_peek_ne {i : Instr} {s t : State} (h : exec i s = .next t) {x : Target}
    (hx : peek t x ≠ peek s x) : MayChange i s x := by
  obtain ⟨hM, hV, hprefix, hlog, -, -, -, hctrl, hdim, hiter, hpolicy, -, -, -⟩ := commandsWriteOnlyDestinations i s t h
  have hN : t.N = s.N := congrArg BitVec.toNat hdim
  have hkept (hw : ¬ (appendsLog i = true ∨ i = .logclr)) : t.log = s.log :=
    hlog (Bool.eq_false_of_not_eq_true fun ha => hw (.inl ha)) fun hc => hw (.inr hc)
  by_contra hno
  apply hx
  cases x with
  | id | param | cmd => rfl
  | status => exact absurd trivial hno
  | ctrl => exact congrArg Ctrl.toWord hctrl
  | dim => exact congrArg (BitVec.setWidth 32) hdim
  | iter => exact congrArg (BitVec.setWidth 32) hiter
  | policy => exact congrArg Policy.toWord hpolicy
  | loglen => exact congrArg (fun log : List LogEntry => BitVec.ofNat 32 log.length) (hkept hno)
  | matrixRow r k => rw [peek, peek, matrixWindow, matrixWindow, hM r hno, hN]
  | vector r => exact hV r hno
  | logEntry k =>
    obtain ⟨hold, hclr⟩ := not_or.1 hno
    by_cases ha : appendsLog i = true
    · exact logWindow_of_prefix (hprefix ha) (Nat.lt_of_not_le fun hk => hold ⟨ha, hk⟩)
    · rw [peek, peek, logWindow, logWindow, hkept (not_or.2 ⟨ha, hclr⟩)]

/-- Settles O42: a changed byte is in a word the command may change, and that word's offset is in the map. -/
theorem addressSpaceFrame : Obligations.AddressSpaceFrame := by
  intro i s t a h hne
  obtain ⟨x, hx, hpeek⟩ := peekByte_ne hne
  have hmay := mayChange_of_peek_ne h hpeek
  obtain ⟨hlo, hhi⟩ := target_eq_some hx
  cases x with
  | status => exact .inl ⟨hlo, hhi⟩
  | matrixRow r k =>
    rw [Target.address_matrixRow_toNat] at hlo hhi
    exact .inr (.inl ⟨r, hmay, by omega, by omega⟩)
  | vector r =>
    rw [Target.address_vector_toNat] at hlo hhi
    exact .inr (.inr (.inl ⟨r, hmay, hlo, hhi⟩))
  | loglen => exact .inr (.inr (.inr (.inl ⟨hmay, hlo, hhi⟩)))
  | logEntry k =>
    rw [Target.address_logEntry_toNat] at hlo hhi
    rcases hmay with ⟨ha, hk⟩ | hclr
    · exact .inr (.inr (.inr (.inr (.inl ⟨ha, by omega, by omega⟩))))
    · exact .inr (.inr (.inr (.inr (.inr ⟨hclr, by omega, by omega⟩))))
  | _ => exact absurd hmay id

/-! ### The registers at the bus (R29 to R35) -/

/-- A read outside the data windows shows the register, BUSY or not, and leaves the state (R58). -/
theorem memRead_register {x : Target} {s : State} {w : Word} (hx : x.isWindow = false) (hw : peek s x = w) :
    memRead s x.address .word = (.read .okay w, s) := by
  rw [memRead_address, readTarget, hx, ← hw]
  rfl

/-- A guarded write is blocked while BUSY (R30 to R32). -/
theorem guardedWrite_of_busy {s : State} (h : s.status.busy = true) (w : State) : guardedWrite s w = s.setHaz :=
  if_pos h

/-- A guarded write is taken while idle (R30 to R32). -/
theorem guardedWrite_of_idle {s : State} (h : s.status.busy = false) (w : State) : guardedWrite s w = w :=
  if_neg (Bool.eq_false_iff.1 h)

/-- Bit j of one flag. -/
theorem getLsbD_flagBit (i j : Nat) (b : Bool) :
    (flagBit i b).getLsbD j = (b && (decide (j < 32) && decide (j = i))) := by
  cases b <;> simp [flagBit]

/-- A flag above a word adds its place. -/
theorem toNat_or_flagBit {w : Word} {i x : Nat} (b : Bool) (hw : w.toNat = x) (hx : x < 2 ^ i) (hi : i < 32) :
    (w ||| flagBit i b).toNat = x + b.toNat * 2 ^ i := by
  have hbit : (flagBit i b).toNat = 2 ^ i * b.toNat := by
    cases b with
    | false => rfl
    | true => simp [flagBit, oneBit, Nat.shiftLeft_eq, Nat.mod_eq_of_lt (Nat.pow_lt_pow_right (by decide : 1 < 2) hi)]
  rw [BitVec.toNat_or, hw, hbit, Nat.or_comm, ← Nat.two_pow_add_eq_or_of_lt hx]
  ring

/-- The flag at bit 0. -/
theorem toNat_flagBit_zero (b : Bool) : (flagBit 0 b).toNat = b.toNat := by
  cases b <;> rfl

/-! ### CTRL (R29) -/

/-- CTRL reads as its three flags at their places (R29). -/
theorem Ctrl.toWord_eq_ofNat (c : Ctrl) :
    c.toWord = BitVec.ofNat 32 (c.ieDone.toNat + 2 * c.ieErr.toNat + 4 * c.ieHaz.toNat) := by
  have hd := c.ieDone.toNat_lt
  have he := c.ieErr.toNat_lt
  have hh := c.ieHaz.toNat_lt
  have h0 := toNat_flagBit_zero c.ieDone
  have h1 := toNat_or_flagBit (i := 1) c.ieErr h0 (by omega) (by decide)
  have h2 := toNat_or_flagBit (i := 2) c.ieHaz h1 (by omega) (by decide)
  apply BitVec.eq_of_toNat_eq
  rw [Ctrl.toWord, h2, BitVec.toNat_ofNat]
  omega

/-- CTRL shows the three low bits written to it (R29). -/
theorem Ctrl.toWord_ofWord (d : Word) : (Ctrl.ofWord d).toWord = d &&& 7 := by
  apply word_ext
  intro j hj
  have hmask : (7 : Word) = colmask 3 := rfl
  rw [hmask, getLsbD_and_colmask, Ctrl.toWord, Ctrl.ofWord, BitVec.getLsbD_or, BitVec.getLsbD_or]
  simp only [getLsbD_flagBit]
  match j with
  | 0 | 1 | 2 => simp
  | j + 3 => simp

/-! ### STATUS (R33) -/

/-- The five flags of STATUS at their places (R33). -/
def Status.flags (t : Status) : Nat :=
  t.busy.toNat + 2 * t.done.toNat + 4 * t.err.toNat + 8 * t.eq.toNat + 16 * t.haz.toNat

/-- The flags are five bits (R33). -/
theorem Status.flags_lt (t : Status) : t.flags < 32 := by
  have hb := t.busy.toNat_lt
  have hd := t.done.toNat_lt
  have he := t.err.toNat_lt
  have hq := t.eq.toNat_lt
  have hz := t.haz.toNat_lt
  rw [Status.flags]
  omega

/-- STATUS reads as its flags at their places and ERRCODE from bit 8 up (R33). -/
theorem Status.toNat_toWord (t : Status) :
    t.toWord.toNat = t.flags + 256 * t.errcode.code := by
  have hb := t.busy.toNat_lt
  have hd := t.done.toNat_lt
  have he := t.err.toNat_lt
  have hq := t.eq.toNat_lt
  have hz := t.haz.toNat_lt
  have h0 := toNat_flagBit_zero t.busy
  have h1 := toNat_or_flagBit (i := 1) t.done h0 (by omega) (by decide)
  have h2 := toNat_or_flagBit (i := 2) t.err h1 (by omega) (by decide)
  have h3 := toNat_or_flagBit (i := 3) t.eq h2 (by omega) (by decide)
  have h4 := toNat_or_flagBit (i := 4) t.haz h3 (by omega) (by decide)
  have hcode : (BitVec.ofNat 32 (t.errcode.code * 2 ^ 8)).toNat = 2 ^ 8 * t.errcode.code := by
    cases t.errcode <;> rfl
  rw [Status.toWord, BitVec.toNat_or, h4, hcode, Nat.or_comm, ← Nat.two_pow_add_eq_or_of_lt (by omega), Status.flags]
  omega

/-- Bit j of the low byte of STATUS (R33). -/
theorem Status.getLsbD_toWord (t : Status) {j : Nat} (hj : j < 8) :
    t.toWord.getLsbD j = ([t.busy, t.done, t.err, t.eq, t.haz][j]?.getD false) := by
  have hcode : (BitVec.ofNat 32 (t.errcode.code * 2 ^ 8)).getLsbD j = false := by
    rw [BitVec.getLsbD_ofNat, Nat.testBit_mul_two_pow, decide_eq_false (by omega : ¬ 8 ≤ j), Bool.false_and,
      Bool.and_false]
  simp only [Status.toWord, BitVec.getLsbD_or, getLsbD_flagBit, hcode]
  match j with
  | 0 | 1 | 2 | 3 | 4 => simp
  | j + 5 => simp

/-! ### POLICY (R32) and ITER (R31) -/

/-- The number of a mode fits its two bits (R32). -/
theorem Mode.code_lt (mode : Mode) : mode.code < 3 := by cases mode <;> decide

/-- A number of a mode written to MODE is stored (R32). -/
theorem Mode.code_written (old : Mode) {b : Nat} (hb : b < 3) : (old.written b).code = b := by
  match b, hb with
  | 0, _ | 1, _ | 2, _ => rfl

/-- POLICY reads as MODE with SWAPW from bit 8 up (R32). -/
theorem Policy.toNat_toWord (p : Policy) : p.toWord.toNat = p.swapw.toNat * 2 ^ 8 + p.mode.code := by
  have hs := p.swapw.isLt
  have hm := p.mode.code_lt
  rw [Policy.toWord, BitVec.toNat_ofNat]
  exact Nat.mod_eq_of_lt (by omega)

/-- The second byte of a word, in place. -/
theorem toNat_and_ff00 (d : Word) : (d &&& 0xFF00).toNat = d.toNat / 2 ^ 8 % 2 ^ 8 * 2 ^ 8 := by
  have hmask : (0xFF00 : Word).toNat = (2 ^ 8 - 1) * 2 ^ 8 := rfl
  rw [BitVec.toNat_and, hmask]
  apply Nat.eq_of_testBit_eq
  intro j
  simp only [Nat.testBit_and, Nat.testBit_mul_two_pow, Nat.testBit_mod_two_pow, Nat.testBit_div_two_pow,
    Nat.testBit_two_pow_sub_one]
  by_cases hj : 8 ≤ j
  · rw [Nat.sub_add_cancel hj, Bool.and_left_comm, Bool.and_comm (d.toNat.testBit j)]
  · rw [decide_eq_false hj, Bool.false_and, Bool.false_and, Bool.and_false]

/-- SWAPW after a write of `d` (R32). -/
theorem Policy.toNat_written_swapw (p : Policy) (d : Word) : (p.written d).swapw.toNat = d.toNat / 2 ^ 8 % 2 ^ 8 := by
  rw [Policy.written, BitVec.extractLsb'_toNat, Nat.shiftRight_eq_div_pow]

/-- MODE after a write of `d` (R32). -/
theorem Policy.written_mode (p : Policy) (d : Word) : (p.written d).mode = p.mode.written (d.toNat % 4) := by
  rw [Policy.written, BitVec.extractLsb'_toNat, Nat.shiftRight_zero]

/-- POLICY shows the SWAPW written and the MODE stored, every reserved bit 0 (R32). -/
theorem Policy.toWord_written (p : Policy) (d : Word) :
    (p.written d).toWord = (d &&& 0xFF00) ||| BitVec.ofNat 32 (p.written d).mode.code := by
  have hm := (p.written d).mode.code_lt
  have hcode : (BitVec.ofNat 32 (p.written d).mode.code).toNat = (p.written d).mode.code :=
    Nat.mod_eq_of_lt (by omega)
  apply BitVec.eq_of_toNat_eq
  rw [Policy.toNat_toWord, Policy.toNat_written_swapw, BitVec.toNat_or, toNat_and_ff00, hcode, Nat.mul_comm _ (2 ^ 8),
    ← Nat.two_pow_add_eq_or_of_lt (by omega)]

/-- ITER shows the low half of the word written (R31). -/
theorem setWidth_setWidth_eq_and (d : Word) : (d.setWidth 16).setWidth 32 = d &&& 0xFFFF := by
  have hmask : (0xFFFF : Word).toNat = 2 ^ 16 - 1 := rfl
  apply BitVec.eq_of_toNat_eq
  rw [BitVec.toNat_and, hmask, Nat.and_two_pow_sub_one_eq_mod, BitVec.toNat_setWidth, BitVec.toNat_setWidth]
  omega

/-- Settles O50: the two guarded writes, blocked and taken, and what the registers then show. -/
theorem iterAndPolicyWrites : Obligations.IterAndPolicyWrites := by
  intro s d
  have hiter : memWrite s 0x0018 .word d = (.write .okay, guardedWrite s { s with iter := d.setWidth 16 }) :=
    memWrite_address s .iter d
  have hpolicy : memWrite s 0x001C .word d = (.write .okay, guardedWrite s { s with policy := s.policy.written d }) :=
    memWrite_address s .policy d
  constructor
  · intro hb
    rw [hiter, hpolicy, guardedWrite_of_busy hb, guardedWrite_of_busy hb]
    exact ⟨rfl, rfl⟩
  · intro hb
    rw [guardedWrite_of_idle hb] at hiter hpolicy
    refine ⟨⟨_, hiter, rfl, BitVec.toNat_setWidth .., ?_⟩, _, hpolicy, rfl, s.policy.toNat_written_swapw d, ?_, ?_, ?_⟩
    · exact memRead_register (x := .iter) rfl (setWidth_setWidth_eq_and d)
    · intro h3
      exact (s.policy.written_mode d).trans (by rw [h3]; rfl)
    · intro h3
      exact (congrArg Mode.code (s.policy.written_mode d)).trans (s.policy.mode.code_written (by omega))
    · exact memRead_register (x := .policy) rfl (s.policy.toWord_written d)

/-- Settles O51: the reads are reads of registers, and a write of STATUS or CTRL is never blocked. -/
theorem statusAndCtrlAccess : Obligations.StatusAndCtrlAccess := by
  intro s d
  have hbit {j : Nat} (hj : j < 8) := s.status.getLsbD_toWord hj
  refine ⟨⟨s.status.toWord, memRead_register (x := .status) rfl rfl, hbit (by decide), hbit (by decide),
      hbit (by decide), hbit (by decide), hbit (by decide), ?_, ?_⟩,
    ⟨_, memWrite_address s .status d, rfl, rfl, rfl, rfl, ?_, ?_, ?_⟩,
    ⟨_, memWrite_address s .ctrl d, rfl, memRead_register (x := .ctrl) rfl (Ctrl.toWord_ofWord d)⟩,
    memRead_register (x := .ctrl) rfl s.ctrl.toWord_eq_ofNat, memRead_register (x := .dim) rfl (BitVec.ofNat_toNat 32 s.dim).symm,
    memRead_register (x := .iter) rfl (BitVec.ofNat_toNat 32 s.iter).symm, memRead_register (x := .policy) rfl ?_,
    memRead_register (x := .loglen) rfl rfl⟩
  · have hcode := s.status.toNat_toWord
    have hlow := s.status.flags_lt
    omega
  · rw [and_mask_eq_zero_iff_fields _ _ [(5, 3)] (by decide) (by decide) (by decide), List.forall_mem_singleton,
      field_eq_zero_iff]
    intro j hlo hhi
    rw [hbit hhi]
    exact congrArg (Option.getD · false) (List.getElem?_eq_none hlo)
  · simp [writeTarget, Status.clearedBy]
  · simp [writeTarget, Status.clearedBy]
  · simp [writeTarget, Status.clearedBy]
  · rw [peek, Policy.toWord, Nat.mul_comm]
    rfl

end Sys2Proof.Machine

/-! SUPPORT. The statements of 20_memory.md: the address map (R54), refused and ignored accesses (R52, R53), the data
windows (R55 to R57), what BUSY protects (R58, R65, R66), repeated accesses (R59), and progress (R63, R243, R244). -/

namespace Sys2Proof.Machine

/-! ### The address map (R54) -/

/-- The control and status registers are the first nine words (R54). -/
theorem exists_csrTarget_iff (word : Nat) : (∃ t, csrTarget word = some t) ↔ word < 9 := by
  match word with
  | 0 | 1 | 2 | 3 | 4 | 5 | 6 | 7 | 8 => exact iff_of_true ⟨_, rfl⟩ (by decide)
  | n + 9 => exact iff_of_false (fun ⟨_, h⟩ => nomatch h) (by omega)

/-- Exactly the offsets of the table are mapped (R54). -/
theorem exists_target_iff_isMapped (a : Addr) : (∃ t, target a = some t) ↔ isMapped a := by
  unfold target
  split
  · exact iff_of_true ⟨_, rfl⟩ (.inr (.inl ‹_›))
  · split
    · exact iff_of_true ⟨_, rfl⟩ (.inr (.inr (.inl ‹_›)))
    · split
      · exact iff_of_true ⟨_, rfl⟩ (.inr (.inr (.inr ‹_›)))
      · rw [exists_csrTarget_iff, isMapped, inMatrixWindow, inVectorWindow, inLogWindow]
        omega

/-- The offset of a target is word-aligned (R54). -/
theorem Target.address_aligned (t : Target) : t.address.toNat % 4 = 0 := by
  cases t with
  | matrixRow r i => rw [Target.address_matrixRow_toNat]; omega
  | vector r => rw [Target.address_vector_toNat]; omega
  | logEntry i => rw [Target.address_logEntry_toNat]; omega
  | _ => rfl

/-- The map takes the offset of a target to it (R54). -/
theorem target_address (t : Target) : target t.address = some t := by
  have h := route_address t
  rwa [route, if_pos t.address_aligned] at h

/-- A word-aligned offset the map takes to a target is that target's offset (R54). -/
theorem address_of_target {a : Addr} {t : Target} (ha : a.toNat % 4 = 0) (h : target a = some t) : t.address = a := by
  obtain ⟨hlo, hhi⟩ := target_eq_some h
  have haligned := t.address_aligned
  exact BitVec.eq_of_toNat_eq (by omega)

/-- Settles O44: the map and the offsets are inverse on aligned offsets, and its branches are the table's ranges. -/
theorem addressMapIsTheTable : Obligations.AddressMapIsTheTable :=
  ⟨fun t => ⟨target_address t, t.address_aligned⟩, fun _ _ => address_of_target, exists_target_iff_isMapped⟩

/-! ### Refused and ignored accesses (R52, R53) -/

/-- A transaction goes to the target of its offset when it is 32 bits wide and word-aligned, and nowhere otherwise
(R52 to R54). -/
theorem route_eq_some_iff {a : Addr} {size : AccessSize} {t : Target} :
    route a size = some t ↔ size = .word ∧ a.toNat % 4 = 0 ∧ target a = some t := by
  cases size with
  | byte | half => simp [route]
  | word => simp [route]

/-- An access that is not 32 bits wide, not word-aligned or unmapped goes nowhere (R52, R53). -/
theorem route_of_refused {a : Addr} {size : AccessSize} (h : size ≠ .word ∨ a.toNat % 4 ≠ 0 ∨ ¬ isMapped a) :
    route a size = none := by
  rw [Option.eq_none_iff_forall_ne_some]
  intro t ht
  obtain ⟨hsize, halign, hmap⟩ := route_eq_some_iff.1 ht
  rcases h with h | h | h
  · exact h hsize
  · exact h halign
  · exact h ((exists_target_iff_isMapped a).1 ⟨t, hmap⟩)

/-- Every transaction is a 32-bit access at the offset of a target, or goes nowhere (R52 to R54). -/
theorem access_cases (a : Addr) (size : AccessSize) :
    (∃ t : Target, a = t.address ∧ size = .word) ∨ route a size = none := by
  cases h : route a size with
  | none => exact .inr rfl
  | some t =>
    obtain ⟨hsize, halign, hmap⟩ := route_eq_some_iff.1 h
    exact .inl ⟨t, (address_of_target halign hmap).symm, hsize⟩

/-- A read that goes nowhere answers ERROR with data 0 and leaves the state (R52, R53). -/
theorem memRead_of_route_none {a : Addr} {size : AccessSize} (h : route a size = none) (s : State) :
    memRead s a size = (.read .error 0, s) := by
  rw [memRead, h]

/-- A write that goes nowhere answers ERROR and leaves the state (R52, R53). -/
theorem memWrite_of_route_none {a : Addr} {size : AccessSize} (h : route a size = none) (s : State) (d : Word) :
    memWrite s a size d = (.write .error, s) := by
  rw [memWrite, h]

/-- Settles O45: a refused access goes nowhere, and the others are reads and writes of read-only registers. -/
theorem refusedAccessesChangeNothing : Obligations.RefusedAccessesChangeNothing := by
  constructor
  · intro s a size d h
    have hroute := route_of_refused h
    exact ⟨memRead_of_route_none hroute s, memWrite_of_route_none hroute s d⟩
  · intro s d i
    exact ⟨memWrite_address s .id d, memWrite_address s .param d, memWrite_address s .loglen d,
      memWrite_address s (.logEntry i) d, memRead_register (x := .cmd) rfl rfl, memRead_register (x := .id) rfl rfl,
      memRead_register (x := .param) rfl rfl⟩

/-! ### The data windows (R55 to R57) -/

/-- A window is not read while BUSY: HAZ is set instead (R55 to R57). -/
theorem readTarget_of_blocked {s : State} {t : Target} (ht : t.isWindow = true) (hb : s.status.busy = true) :
    readTarget s t = (0, s.setHaz) := by
  rw [readTarget, if_pos ht, windowRead, if_pos hb]

/-- While idle every target shows its word and a read leaves the state (R55 to R58). -/
theorem readTarget_of_idle {s : State} (hb : s.status.busy = false) (t : Target) : readTarget s t = (peek s t, s) := by
  rw [readTarget, windowRead, if_neg (Bool.eq_false_iff.1 hb), ite_self]

/-- A read of a window while BUSY answers 0 and sets HAZ (R55 to R57). -/
theorem memRead_window_of_busy {s : State} {t : Target} (ht : t.isWindow = true) (hb : s.status.busy = true) :
    memRead s t.address .word = (.read .okay 0, s.setHaz) := by
  rw [memRead_address, readTarget_of_blocked ht hb]

/-- A read of a target while idle answers the word it shows (R55 to R57). -/
theorem memRead_of_idle {s : State} {t : Target} {w : Word} (hb : s.status.busy = false) (hw : peek s t = w) :
    memRead s t.address .word = (.read .okay w, s) := by
  rw [memRead_address, readTarget_of_idle hb, hw]

/-- A row below DIM is shown as it is (R55). -/
theorem matrixWindow_of_lt {s : State} {i : Fin 32} (r : RegNo) (hi : i.val < s.N) :
    matrixWindow s r i = (s.M r).row i.val := if_pos hi

/-- A row at or above DIM is shown as 0 (R55). -/
theorem matrixWindow_of_ge {s : State} {i : Fin 32} (r : RegNo) (hi : s.N ≤ i.val) : matrixWindow s r i = 0 :=
  if_neg (Nat.not_lt.2 hi)

/-- A row below DIM takes the masked data (R55). -/
theorem writeMatrixRow_of_lt {s : State} {i : Fin 32} (r : RegNo) (hi : i.val < s.N) (d : Word) :
    writeMatrixRow s r i d = s.setM r ((s.M r).setRow i (d &&& colmask s.N)) := if_pos hi

/-- A row at or above DIM ignores a write (R55). -/
theorem writeMatrixRow_of_ge {s : State} {i : Fin 32} (r : RegNo) (hi : s.N ≤ i.val) (d : Word) :
    writeMatrixRow s r i d = s := if_neg (Nat.not_lt.2 hi)

/-- Settles O46: the offset is that of the row, and the row is guarded by BUSY and by DIM. -/
theorem matrixWindowAccess : Obligations.MatrixWindowAccess := by
  intro s r i d
  have hwrite : memWrite s (Target.matrixRow r i).address .word d =
      (.write .okay, guardedWrite s (writeMatrixRow s r i d)) := memWrite_address s (.matrixRow r i) d
  refine ⟨fun hb => ⟨memRead_window_of_busy (t := .matrixRow r i) rfl hb, ?_⟩,
    fun hb hi => ⟨memRead_of_idle (t := .matrixRow r i) hb (matrixWindow_of_lt r hi), ?_⟩,
    fun hb hi => ⟨memRead_of_idle (t := .matrixRow r i) hb (matrixWindow_of_ge r hi), ?_⟩⟩
  · rwa [guardedWrite_of_busy hb] at hwrite
  · rw [guardedWrite_of_idle hb, writeMatrixRow_of_lt r hi] at hwrite
    refine ⟨_, hwrite, rfl, ?_, fun k hk => ?_, fun q hq => s.setM_M_ne _ hq⟩
    · rw [State.setM_M_self, Mat.row_setRow, if_pos rfl]
    · rw [State.setM_M_self, Mat.row_setRow, if_neg hk]
  · rwa [guardedWrite_of_idle hb, writeMatrixRow_of_ge r hi] at hwrite

/-- Settles O47: the offset is that of the register, which is guarded by BUSY. -/
theorem vectorWindowAccess : Obligations.VectorWindowAccess := by
  intro s r d
  have hwrite : memWrite s (Target.vector r).address .word d =
      (.write .okay, guardedWrite s (s.setV r (d &&& colmask s.N))) := memWrite_address s (.vector r) d
  refine ⟨fun hb => ⟨memRead_window_of_busy (t := .vector r) rfl hb, ?_⟩,
    fun hb => ⟨memRead_of_idle (t := .vector r) hb rfl, ?_⟩⟩
  · rwa [guardedWrite_of_busy hb] at hwrite
  · rw [guardedWrite_of_idle hb] at hwrite
    exact ⟨_, hwrite, rfl, s.setV_V_self r _, fun q hq => s.setV_V_ne _ hq⟩

/-- An entry of the log is shown as its word (R57). -/
theorem logWindow_of_entry {s : State} {i : Fin 1024} {e : LogEntry} (h : s.log[i.val]? = some e) :
    logWindow s i = e.toWord := by
  rw [logWindow, h]

/-- At and above LOGLEN the log shows 0 (R57). -/
theorem logWindow_of_ge {s : State} {i : Fin 1024} (h : s.loglen ≤ i.val) : logWindow s i = 0 := by
  rw [logWindow, List.getElem?_eq_none h]

/-- The word of an entry is its fields at their places (R26). -/
theorem LogEntry.toNat_toWord (e : LogEntry) :
    e.toWord.toNat = (if e.kind = .swap then 1024 else 0) + 32 * e.m.toNat + e.n.toNat := by
  have h := toNat_toWord_mkEntry e.kind e.m.isLt e.n.isLt
  have hkind : e.kind.bit * 2 ^ 10 = if e.kind = .swap then 1024 else 0 := by cases e.kind <;> rfl
  have hself : mkEntry e.kind e.m.toNat e.n.toNat = e := mkEntry_self e
  rwa [hself, hkind, Nat.mul_comm e.m.toNat] at h

/-- Settles O48: the offset is that of the entry, whose reads are guarded by BUSY and whose writes do nothing. -/
theorem logWindowAccess : Obligations.LogWindowAccess := fun s i d =>
  ⟨fun hb => memRead_window_of_busy (t := .logEntry i) rfl hb,
    fun hb e he => ⟨e.toWord, memRead_of_idle (t := .logEntry i) hb (logWindow_of_entry he), e.toNat_toWord⟩,
    fun hb hi => memRead_of_idle (t := .logEntry i) hb (logWindow_of_ge hi), memWrite_address s (.logEntry i) d⟩

/-! ### What BUSY protects (R58, R65, R66) -/

/-- Everything a host transaction can change while BUSY: CTRL, the flags DONE, ERR and HAZ, and the record of the
answers (R57, R58, R205). -/
theorem transact_busy {s : State} (hb : s.status.busy = true) (tr : Transaction) :
    ∃ (ctrl : Ctrl) (done err haz : Bool) (responses : List Reply),
      transact s tr =
        { s with ctrl := ctrl, status := { s.status with done := done, err := err, haz := haz },
                 responses := responses } := by
  cases tr with
  | read a size =>
    rw [transact]
    rcases memRead_state s a size with h | ⟨h, -⟩ <;> rw [h] <;> exact ⟨_, _, _, _, _, rfl⟩
  | write a size d =>
    rw [transact]
    rcases memWrite_state s a size d with h | ⟨t, -, h⟩
    · rw [h]; exact ⟨_, _, _, _, _, rfl⟩
    · rcases writeTarget_busy hb d t with ht | ht | ht | ht <;> rw [h, ht] <;> exact ⟨_, _, _, _, _, rfl⟩

/-- Settles O53: the command and what it reads are not among what a transaction can change while BUSY. -/
theorem busyProtectsOperands : Obligations.BusyProtectsOperands := by
  intro s tr hb
  obtain ⟨ctrl, done, err, haz, responses, h⟩ := transact_busy hb tr
  rw [h]
  exact ⟨⟨rfl, rfl, rfl, rfl, rfl, rfl, rfl⟩, rfl, rfl, rfl, hb, rfl, rfl⟩

/-! ### Repeated accesses (R59) -/

/-- A read of a window, made while BUSY, is among the transactions that break a BUSY rule (R54, R239). -/
theorem breaksBusyRule_read_address {t : Target} (ht : t.isWindow = true) : BreaksBusyRule (.read t.address .word) := by
  refine ⟨t.address_aligned, ?_⟩
  cases t with
  | matrixRow r i => rw [inMatrixWindow, Target.address_matrixRow_toNat]; omega
  | vector r => rw [inVectorWindow, Target.address_vector_toNat]; omega
  | logEntry i => rw [inLogWindow, Target.address_logEntry_toNat]; omega
  | _ => cases ht

/-- A read leaves the state, unless it is blocked (R55 to R58). -/
theorem readTarget_cases (s : State) (t : Target) :
    readTarget s t = (peek s t, s) ∨
    (readTarget s t = (0, s.setHaz) ∧ t.isWindow = true ∧ s.status.busy = true) := by
  cases ht : t.isWindow with
  | false => exact .inl (if_neg (Bool.eq_false_iff.1 ht))
  | true =>
    cases hb : s.status.busy with
    | false => exact .inl (readTarget_of_idle hb t)
    | true => exact .inr ⟨readTarget_of_blocked ht hb, rfl, rfl⟩

/-- The same read again answers the same (R59). -/
theorem readTarget_again (s : State) (t : Target) : (readTarget (readTarget s t).2 t).1 = (readTarget s t).1 := by
  rcases readTarget_cases s t with h | ⟨h, ht, hb⟩
  · rw [h, h]
  · rw [h, readTarget_of_blocked (s := s.setHaz) ht hb]

/-- The last write to a matrix register counts (R16). -/
theorem State.setM_setM (s : State) (r : RegNo) (X Y : Mat) : (s.setM r X).setM r Y = s.setM r Y :=
  congrArg (fun mats => { s with mats := mats }) (Vector.set_set ..)

/-- The last write to a vector register counts (R16). -/
theorem State.setV_setV (s : State) (r : RegNo) (v w : Word) : (s.setV r v).setV r w = s.setV r w :=
  congrArg (fun vecs => { s with vecs := vecs }) (Vector.set_set ..)

/-- The last write to a row counts (R55). -/
theorem Mat.setRow_setRow (A : Mat) (i : Fin 32) (v w : Word) : (A.setRow i v).setRow i w = A.setRow i w :=
  Vector.set_set ..

/-- A row write made twice is the write made once (R55, R59). -/
theorem writeMatrixRow_again (s : State) (r : RegNo) (i : Fin 32) (d : Word) :
    writeMatrixRow (writeMatrixRow s r i d) r i d = writeMatrixRow s r i d := by
  rcases Nat.lt_or_ge i.val s.N with hi | hi
  · rw [writeMatrixRow_of_lt r hi, writeMatrixRow_of_lt (s := s.setM r _) r hi, State.setM_setM, State.setM_M_self,
      Mat.setRow_setRow, State.setM_N]
  · rw [writeMatrixRow_of_ge r hi, writeMatrixRow_of_ge r hi]

/-- Flags cleared twice are flags cleared once (R33, R59). -/
theorem Status.clearedBy_again (t : Status) (d : Word) : (t.clearedBy d).clearedBy d = t.clearedBy d := by
  simp [Status.clearedBy]

/-- A MODE written twice is the MODE written once, the value that is not stored included (R32, R59). -/
theorem Mode.written_again (old : Mode) (b : Nat) : (old.written b).written b = old.written b := by
  match b with
  | 0 | 1 | 2 | b + 3 => rfl

/-- A POLICY written twice is the POLICY written once (R32, R59). -/
theorem Policy.written_again (p : Policy) (d : Word) : (p.written d).written d = p.written d :=
  congrArg (Policy.mk · (d.extractLsb' 8 8)) (p.mode.written_again _)

/-- A guarded write made twice is the write made once, when the write while idle is so and leaves BUSY (R59). -/
theorem guardedWrite_again {s : State} {f : State → State} (hbusy : (f s).status.busy = s.status.busy)
    (hf : f (f s) = f s) :
    guardedWrite (guardedWrite s (f s)) (f (guardedWrite s (f s))) = guardedWrite s (f s) := by
  cases hb : s.status.busy with
  | true => rw [guardedWrite_of_busy hb, guardedWrite_of_busy (s := s.setHaz) hb]; rfl
  | false => rw [guardedWrite_of_idle hb, guardedWrite_of_idle (hbusy.trans hb), hf]

/-- An illegal DIM value is ignored (R30). -/
theorem writeDim_of_illegal {d : Word} (h : ¬ (1 ≤ d.toNat ∧ d.toNat ≤ 32)) (s : State) : writeDim s d = s :=
  if_neg h

/-- BUSY is not among what a row write changes (R55). -/
theorem writeMatrixRow_busy (s : State) (r : RegNo) (i : Fin 32) (d : Word) :
    (writeMatrixRow s r i d).status.busy = s.status.busy := by
  unfold writeMatrixRow
  split <;> rfl

/-- Every write but one of CMD or a legal one of DIM, made twice, is the write made once (R59). -/
theorem writeTarget_again {d : Word} {t : Target} (hcmd : t ≠ .cmd)
    (hdim : t = .dim → ¬ (1 ≤ d.toNat ∧ d.toNat ≤ 32)) (s : State) :
    writeTarget (writeTarget s d t) d t = writeTarget s d t := by
  cases t with
  | id | param | loglen | logEntry | ctrl => rfl
  | status => exact congrArg (fun status => { s with status := status }) (s.status.clearedBy_again d)
  | cmd => exact absurd rfl hcmd
  | dim =>
    have hignored := writeDim_of_illegal (hdim rfl)
    refine guardedWrite_again (f := (writeDim · d)) ?_ ?_
    · rw [hignored]
    · rw [hignored, hignored]
  | iter => exact guardedWrite_again (f := fun s => { s with iter := d.setWidth 16 }) rfl rfl
  | policy =>
    exact guardedWrite_again (f := fun s => { s with policy := s.policy.written d }) rfl
      (congrArg (fun policy => { s with policy := policy }) (s.policy.written_again d))
  | matrixRow r i =>
    exact guardedWrite_again (f := (writeMatrixRow · r i d)) (writeMatrixRow_busy s r i d)
      (writeMatrixRow_again s r i d)
  | vector r => exact guardedWrite_again (f := fun s => s.setV r (d &&& colmask s.N)) rfl (s.setV_setV r _ _)

/-- Settles O55: a refused access leaves the state, and a target's reads and writes repeat. -/
theorem accessesRepeatable : Obligations.AccessesRepeatable := by
  intro s a size d
  rcases access_cases a size with ⟨t, rfl, rfl⟩ | hnone
  · refine ⟨?_, ?_, fun hcmd hdim => ?_⟩
    · rw [memRead_address]
      rcases readTarget_cases s t with h | ⟨h, ht, hb⟩
      · exact .inl (congrArg Prod.snd h)
      · exact .inr ⟨congrArg Prod.snd h, hb, breaksBusyRule_read_address ht⟩
    · rw [memRead_address, memRead_address, readTarget_again]
    · rw [memWrite_address, memWrite_address]
      exact writeTarget_again (fun ht => hcmd (by rw [ht]; rfl)) (fun ht hlegal => hdim ⟨by rw [ht]; rfl, hlegal⟩) s
  · have hread := memRead_of_route_none hnone s
    have hwrite := memWrite_of_route_none hnone s d
    rw [hread, hwrite]
    exact ⟨.inl rfl, congrArg Prod.fst hread, fun _ _ => congrArg Prod.snd hwrite⟩

/-! ### Progress (R63, R206, R243, R244) -/

/-- The Engine's turn completes a pending command, whatever it is (R206). -/
theorem engineTurn_completes {s : State} (h : s.pendV = true) :
    ∃ t c, engineTurn s = .next t ∧ Completed c s t ∧ Untouched s t := by
  rcases engineTurn_pending h with ⟨i, -, hi⟩ | ⟨-, hr⟩
  · rw [hi, exec_eq_unlessError]
    rcases unlessError_cases (commandCheck i s) s (commandWrites i s) with ⟨-, he⟩ | ⟨-, he⟩
    · exact ⟨_, _, he, completed_finish (commandWrites_err i s) (commandWrites_haz i s),
        { commandWrites_untouched i s with }⟩
    · exact ⟨_, _, he, (failed_finish _ s).completed, (failed_finish _ s).untouched⟩
  · exact ⟨_, _, hr, (failed_finish _ s).completed, (failed_finish _ s).untouched⟩

/-- After the Engine's turn no command is pending, and the turn takes no event from the list (R63, R206). -/
theorem engineTurn_clears (s : State) : ∃ t, engineTurn s = .next t ∧ t.events = s.events ∧ t.pendV = false := by
  cases h : s.pendV with
  | false => exact ⟨s, engineTurn_idle h, rfl, h⟩
  | true =>
    obtain ⟨t, c, ht, hdone, hkept⟩ := engineTurn_completes h
    exact ⟨t, ht, hkept.events, hdone.pendV⟩

/-- Every step answers, and takes the next event (R63). -/
theorem step_takes_event (s : State) : ∃ t, step s = .next t ∧ t.events = s.events.tail := by
  rcases step_cases s with ⟨he, hs⟩ | ⟨es, he, hs⟩ | ⟨tr, es, he, hs⟩ | ⟨es, he, hs⟩ <;> rw [hs, he]
  · obtain ⟨t, ht, hev, -⟩ := engineTurn_clears s
    exact ⟨t, ht, hev.trans he⟩
  · obtain ⟨t, ht, hev, -⟩ := engineTurn_clears (s.setEvents es)
    exact ⟨t, ht, hev⟩
  · exact ⟨_, rfl, transact_events _ tr⟩
  · exact ⟨_, rfl, rfl⟩

/-- A write, blocked or taken, keeps a pending command pending when the write itself does. -/
theorem guardedWrite_pendV {s w : State} (h : s.pendV = true) (hw : w.pendV = true) :
    (guardedWrite s w).pendV = true := by
  rw [guardedWrite_eq]
  split
  · exact h
  · exact hw

/-- No write withdraws a pending command (R65, R66). -/
theorem writeTarget_pendV {s : State} (h : s.pendV = true) (d : Word) (t : Target) :
    (writeTarget s d t).pendV = true := by
  cases t with
  | id | param | ctrl | status | loglen | logEntry => exact h
  | cmd => exact guardedWrite_pendV h (s.accept_pendV d)
  | dim => exact guardedWrite_pendV h (by unfold writeDim; split <;> exact h)
  | matrixRow r i => exact guardedWrite_pendV h (by unfold writeMatrixRow; split <;> exact h)
  | iter | policy | vector => exact guardedWrite_pendV h h

/-- No host transaction withdraws a pending command (R65, R66). -/
theorem transact_pendV {s : State} (h : s.pendV = true) (tr : Transaction) : (transact s tr).pendV = true := by
  cases tr with
  | read a size =>
    rw [transact, State.answer_pendV]
    rcases memRead_state s a size with hr | ⟨hr, -⟩ <;> rw [hr]
    · exact h
    · exact h
  | write a size d =>
    rw [transact, State.answer_pendV]
    rcases memWrite_state s a size d with hw | ⟨t, -, hw⟩ <;> rw [hw]
    · exact h
    · exact writeTarget_pendV h d t

/-- The machine goes idle from `s` in at most `n` steps, and with DONE set unless a reset is among the events to come
(R206, R230, R243). -/
def IdleWithin (n : Nat) (s : State) : Prop :=
  ∃ (k : Nat) (t : State), k ≤ n ∧ core.run k s = .next t ∧ t.pendV = false ∧ t.status.busy = false ∧
    ((∀ e ∈ s.events, e ≠ .reset) → t.status.done = true)

/-- With the Engine's turn next, a pending command completes in one step (R206). -/
theorem idleWithin_of_engineNext {s : State} (h : s.pendV = true) (hs : s.EngineNext) (n : Nat) :
    IdleWithin (n + 1) s := by
  obtain ⟨t, c, ht, hdone, -⟩ := engineTurn_completes (s := s.eventTaken) h
  exact ⟨1, t, Nat.le_add_left 1 n, run_succ ((step_of_engineNext hs).trans ht) 0, hdone.pendV, hdone.busy,
    fun _ => hdone.done⟩

/-- A pending command completes, or a reset abandons it, within one step more than the events to come (R243). -/
theorem idleWithin_of_pendV {s : State} (h : s.pendV = true) : IdleWithin (s.events.length + 1) s := by
  generalize hes : s.events = es
  induction es generalizing s with
  | nil => exact idleWithin_of_engineNext h (.inl hes) _
  | cons e es ih =>
    cases e with
    | engine => exact idleWithin_of_engineNext h (.inr (congrArg List.head? hes)) _
    | reset =>
      exact ⟨1, _, Nat.le_add_left .., run_succ (step_of_reset hes) 0, rfl, rfl,
        fun hno => absurd rfl (hno .reset (hes ▸ List.mem_cons_self))⟩
    | bus tr =>
      have hev : (transact s.eventTaken tr).events = es := (transact_events ..).trans (congrArg List.tail hes)
      obtain ⟨k, t, hk, hrun, hv, hb, hd⟩ := ih (transact_pendV (s := s.eventTaken) h tr) hev
      refine ⟨k + 1, t, Nat.succ_le_succ hk, (run_succ (step_of_bus hes) k).trans hrun, hv, hb, fun hno => hd ?_⟩
      rw [hev]
      rw [hes] at hno
      exact (List.forall_mem_cons.1 hno).2

/-- The end of every run is reached within one step more than the events to come (R244). -/
theorem exists_endOfRun (s : State) : ∃ t, endOfRun (s.events.length + 1) s = some t := by
  generalize hes : s.events = es
  induction es generalizing s with
  | nil =>
    by_cases hf : s.Finished
    · exact ⟨s, endOfRun_finished hf _⟩
    · obtain ⟨t, ht, hev, hv⟩ := engineTurn_clears s.eventTaken
      have hfin : t.Finished := by
        rw [finished_iff, hev, State.eventTaken_of_nil hes, hes]
        exact ⟨List.forall_mem_nil _, hv⟩
      exact ⟨t, (endOfRun_step hf ((step_of_engineNext (.inl hes)).trans ht) 0).trans (endOfRun_finished hfin 0)⟩
  | cons e es ih =>
    by_cases hf : s.Finished
    · exact ⟨s, endOfRun_finished hf _⟩
    · obtain ⟨t, ht, hev⟩ := step_takes_event s
      obtain ⟨u, hu⟩ := ih t (hev.trans (congrArg List.tail hes))
      exact ⟨u, (endOfRun_step hf ht _).trans hu⟩

/-- Settles O60: by induction on the events to come, each of which one step takes. -/
theorem pendingCommandCompletes : Obligations.PendingCommandCompletes := by
  refine ⟨fun s h => idleWithin_of_pendV h, fun s => ?_⟩
  obtain ⟨t, ht⟩ := exists_endOfRun s
  exact ⟨t, ht, (endOfRun_first ht).1⟩

end Sys2Proof.Machine

/-! SUPPORT. The statements of 30_encoding.md: the decoder as StaticCheck's masks and the table of commands (R83, R84,
R202), the two round trips (R85, R86), and what a word that is no working command does (R83, R87). -/

namespace Sys2Proof.Machine

/-! ### The fields of a word and of a command (R81 to R83) -/

/-- The fields of a command word below its opcode, each 0 where it is not used (R81, R83). -/
structure Fields where
  rd : RegNo := 0
  ra : RegNo := 0
  rb : RegNo := 0
  rc : RegNo := 0
  rsv : Nat := 0
  k : Nat := 0
  m : Nat := 0
  n : Nat := 0

/-- The fields of a word below its opcode, at their bits (R81, R82). -/
def wordFields (w : Word) : Fields :=
  { rd := w.rd, ra := w.ra, rb := w.rb, rc := w.rc, rsv := w.rsv, k := w.k, m := w.m, n := w.n }

/-- The fields a command uses, by the field table (R83); rsv is used by none. The reserved opcodes have no fields. -/
def usedFields : Instr → Fields
  | .nop => {}
  | .ident rd => { rd }
  | .mov rd ra => { rd, ra }
  | .mul rd ra rb => { rd, ra, rb }
  | .mvmul rd ra rb => { rd, ra, rb }
  | .cmpeq ra rb => { ra, rb }
  | .swapgen rd m n => { rd, m, n }
  | .addgen rd m n => { rd, m, n }
  | .applyAdd rd m n => { rd, m, n }
  | .applySwap rd m n => { rd, k := 1, m, n }
  | .compose rd => { rd }
  | .logclr => {}
  | .keyderive rd => { rd }
  | .verify rd ra rb rc => { rd, ra, rb, rc }
  | .reservedD _ => {}
  | .reservedE _ => {}
  | .reservedF _ => {}

/-- The command of an opcode 0x0 to 0xC with given operand fields (R83, R84). -/
def tableCommand (op : Nat) (f : Fields) : Instr :=
  match op with
  | 0x0 => .nop
  | 0x1 => .ident f.rd
  | 0x2 => .mov f.rd f.ra
  | 0x3 => .mul f.rd f.ra f.rb
  | 0x4 => .mvmul f.rd f.ra f.rb
  | 0x5 => .cmpeq f.ra f.rb
  | 0x6 => .swapgen f.rd f.m f.n
  | 0x7 => .addgen f.rd f.m f.n
  | 0x8 => if f.k == 0 then .applyAdd f.rd f.m f.n else .applySwap f.rd f.m f.n
  | 0x9 => .compose f.rd
  | 0xA => .logclr
  | 0xB => .keyderive f.rd
  | _ => .verify f.rd f.ra f.rb f.rc

/-- The reserved command of an opcode 0xD to 0xF (R87). -/
def reservedCommand (op : Nat) (payload : BitVec 28) : Instr :=
  match op with
  | 0xD => .reservedD payload
  | 0xE => .reservedE payload
  | _ => .reservedF payload

/-- An opcode is a 4-bit number. -/
theorem op_lt_sixteen (w : Word) : w.op < 16 := Nat.mod_lt _ (by decide)

/-- The kind field is one bit. -/
theorem k_lt_two (w : Word) : w.k < 2 := Nat.mod_lt _ (by decide)

/-- A field of five bits. -/
theorem field_five_lt (w : Word) (lo : Nat) : w.field lo 5 < 32 := Nat.mod_lt _ (by decide)

/-- A register field names register 0 exactly when its bits are 0. -/
theorem regField_eq_zero_iff (w : Word) (lo : Nat) : w.regField lo = 0 ↔ w.field lo 3 = 0 := Fin.ext_iff

/-- The fields that must be 0 for an opcode, lowest bit and width of each, from the top: the zeros of the field
table (R83). -/
def zeroFields : Nat → List (Nat × Nat)
  | 0x0 => [(25, 3), (22, 3), (19, 3), (16, 3), (11, 5), (10, 1), (5, 5), (0, 5)]
  | 0x1 => [(22, 3), (19, 3), (16, 3), (11, 5), (10, 1), (5, 5), (0, 5)]
  | 0x2 => [(19, 3), (16, 3), (11, 5), (10, 1), (5, 5), (0, 5)]
  | 0x3 => [(16, 3), (11, 5), (10, 1), (5, 5), (0, 5)]
  | 0x4 => [(16, 3), (11, 5), (10, 1), (5, 5), (0, 5)]
  | 0x5 => [(25, 3), (16, 3), (11, 5), (10, 1), (5, 5), (0, 5)]
  | 0x6 => [(22, 3), (19, 3), (16, 3), (11, 5), (10, 1)]
  | 0x7 => [(22, 3), (19, 3), (16, 3), (11, 5), (10, 1)]
  | 0x8 => [(22, 3), (19, 3), (16, 3), (11, 5)]
  | 0x9 => [(22, 3), (19, 3), (16, 3), (11, 5), (10, 1), (5, 5), (0, 5)]
  | 0xA => [(25, 3), (22, 3), (19, 3), (16, 3), (11, 5), (10, 1), (5, 5), (0, 5)]
  | 0xB => [(22, 3), (19, 3), (16, 3), (11, 5), (10, 1), (5, 5), (0, 5)]
  | 0xC => [(11, 5), (10, 1), (5, 5), (0, 5)]
  | _ => []

/-- The fields an opcode wants zero are zero in a word (R83). -/
def ZeroFieldsClear (w : Word) (op : Nat) : Prop := ∀ p ∈ zeroFields op, w.field p.1 p.2 = 0

/-- ZeroMask (R202) has exactly the bits of the fields the field table marks 0 (R83). -/
theorem and_zeroMask_eq_zero_iff (w : Word) {op : Nat} (hop : op < 16) :
    w &&& zeroMask op = 0 ↔ ZeroFieldsClear w op := by
  have hin : ∀ op : Fin 16, ∀ p ∈ zeroFields op, ∀ j : Fin 32, p.1 ≤ j.val → j.val < p.1 + p.2 →
      (zeroMask op).getLsbD j = true := by decide
  have hout : ∀ op : Fin 16, ∀ j : Fin 32, (zeroMask op).getLsbD j = true →
      ∃ p ∈ zeroFields op, p.1 ≤ j.val ∧ j.val < p.1 + p.2 := by decide
  have hfit : ∀ op : Fin 16, ∀ p ∈ zeroFields op, p.1 + p.2 ≤ 32 := by decide
  exact and_mask_eq_zero_iff_fields w (zeroMask op) (zeroFields op) (hin ⟨op, hop⟩) (hout ⟨op, hop⟩) (hfit ⟨op, hop⟩)

/-- The fields an opcode wants zero are zero exactly when the word has no field but those its command uses. -/
theorem zeroFieldsClear_iff (w : Word) {op : Nat} (hop : op ≤ 0xC) :
    ZeroFieldsClear w op ↔ usedFields (tableCommand op (wordFields w)) = wordFields w := by
  have happly : usedFields (tableCommand 0x8 (wordFields w)) = { rd := w.rd, k := w.k, m := w.m, n := w.n } := by
    obtain hk | hk : w.k = 0 ∨ w.k = 1 := by have := k_lt_two w; omega
    all_goals simp [tableCommand, wordFields, usedFields, hk]
  interval_cases op <;>
    simp [ZeroFieldsClear, zeroFields, ↓happly, tableCommand, usedFields, wordFields, Word.rd, Word.ra, Word.rb,
      Word.rc, Word.rsv, Word.k, Word.m, Word.n, eq_comm (a := (0 : RegNo)), eq_comm (a := 0), regField_eq_zero_iff]

/-- A word of an opcode 0x0 to 0xC is clear under its ZeroMask exactly when it has no field but those its command
uses (R83, R202). -/
theorem and_zeroMask_eq_zero_iff_usedFields {w : Word} (hop : w.op ≤ 0xC) :
    w &&& zeroMask w.op = 0 ↔ usedFields (tableCommand w.op (wordFields w)) = wordFields w :=
  (and_zeroMask_eq_zero_iff w (op_lt_sixteen w)).trans (zeroFieldsClear_iff w hop)

/-! ### The decoder by masks (R84, R86, R202) -/

/-- `whenZero` under a condition said in another way. -/
theorem whenZero_eq_ite {b : Bool} {p : Prop} [Decidable p] (h : b = true ↔ p) (i : Instr) :
    whenZero b i = if p then .ok i else .error .reservedField := by
  simp only [whenZero, h]

/-- The decoder on an opcode 0x0 to 0xC: the must-be-zero mask, then the table's command (R84, R202). -/
theorem decode_of_table {w : Word} (hop : w.op ≤ 0xC) :
    decode w = if w &&& zeroMask w.op = 0 then .ok (tableCommand w.op (wordFields w)) else .error .reservedField := by
  have hmask := and_zeroMask_eq_zero_iff w (op_lt_sixteen w)
  generalize hw : w.op = op at *
  simp only [decode, hw]
  interval_cases op <;>
  · refine whenZero_eq_ite (Iff.trans ?_ hmask.symm) _
    simp [ZeroFieldsClear, zeroFields, Word.rd, Word.ra, Word.rb, Word.rc, Word.rsv, Word.k, Word.m, Word.n,
      Word.regField, and_assoc]

/-- A legal word of an opcode 0x0 to 0xC is clear under its ZeroMask and decodes to the table's command (R84). -/
theorem of_decode_of_table {w : Word} {i : Instr} (hop : w.op ≤ 0xC) (h : decode w = .ok i) :
    w &&& zeroMask w.op = 0 ∧ i = tableCommand w.op (wordFields w) := by
  rw [decode_of_table hop] at h
  split at h
  case isTrue hclear => cases h; exact ⟨hclear, rfl⟩
  case isFalse => cases h

/-- The decoder on an opcode 0xD to 0xF: the reserved command, whatever the other bits hold (R87). -/
theorem decode_of_reserved {w : Word} (hop : 0xD ≤ w.op) :
    decode w = .ok (reservedCommand w.op (w.setWidth 28)) := by
  have hlt := op_lt_sixteen w
  generalize hw : w.op = op at *
  simp only [decode, hw]
  interval_cases op <;> rfl

/-- The table's command has the opcode it stands under (R84). -/
theorem opcode_tableCommand {op : Nat} (hop : op ≤ 0xC) (f : Fields) : (tableCommand op f).opcode = op := by
  cases hk : f.k == 0 <;> interval_cases op <;> simp [tableCommand, hk, Instr.opcode]

/-- A reserved command has its opcode (R84, R87). -/
theorem opcode_reservedCommand {op : Nat} (hop : 0xD ≤ op) (hlt : op < 16) (p : BitVec 28) :
    (reservedCommand op p).opcode = op := by
  interval_cases op <;> rfl

/-! ### The round trips (R85, R86) -/

/-- The word with given operand fields (R85). -/
def encodeOperands (op : Nat) (f : Fields) : Word := encodeFields op f.rd f.ra f.rb f.rc f.k f.m f.n

/-- A command of the table is encoded by its opcode and its fields (R85). -/
theorem encode_of_table {i : Instr} (hop : i.opcode ≤ 0xC) : encode i = encodeOperands i.opcode (usedFields i) := by
  cases i with
  | reservedD | reservedE | reservedF => simp [Instr.opcode] at hop
  | _ => rfl

/-- A command of the table is the one its opcode and its fields name (R83). -/
theorem tableCommand_usedFields {i : Instr} (hop : i.opcode ≤ 0xC) :
    tableCommand i.opcode (usedFields i) = i := by
  cases i with
  | reservedD | reservedE | reservedF => simp [Instr.opcode] at hop
  | _ => rfl

/-- No command uses rsv (R83). -/
theorem usedFields_rsv (i : Instr) : (usedFields i).rsv = 0 := by cases i <;> rfl

/-- The fields of a well-formed command fit their places (R81). -/
theorem usedFields_fit {i : Instr} (h : i.WellFormed) :
    (usedFields i).k < 2 ∧ (usedFields i).m < 32 ∧ (usedFields i).n < 32 := by
  cases i with
  | swapgen _ m n | addgen _ m n | applyAdd _ m n | applySwap _ m n =>
    exact ⟨by simp [usedFields], indicesFit_iff.1 h⟩
  | _ => simp [usedFields]

/-- The table's command is well-formed when its indices fit (R81, R89). -/
theorem tableCommand_wellFormed (op : Nat) {f : Fields} (hm : f.m < 32) (hn : f.n < 32) :
    (tableCommand op f).WellFormed := by
  have hfit : indicesFit f.m f.n = true := indicesFit_iff.2 ⟨hm, hn⟩
  unfold tableCommand
  split
  case h_7 | h_8 => exact hfit
  case h_9 => split <;> exact hfit
  all_goals rfl

/-- A reserved command is well-formed, whatever its payload (R87). -/
theorem reservedCommand_wellFormed (op : Nat) (p : BitVec 28) : (reservedCommand op p).WellFormed := by
  unfold reservedCommand
  split <;> rfl

/-- A word with rsv = 0 is the word of its opcode and its fields (R81, R85). -/
theorem encodeOperands_wordFields {w : Word} (h : w.rsv = 0) : encodeOperands w.op (wordFields w) = w := by
  have hw := word_eq_fields w
  rw [h, Nat.zero_mul, Nat.add_zero] at hw
  rw [encodeOperands, encodeFields, wordFields, ← hw, BitVec.ofNat_toNat, BitVec.setWidth_eq]

/-- The word of an opcode and fields that fit, rsv 0, is read back (R82, R85). -/
theorem fields_encodeOperands {op : Nat} {f : Fields} (hop : op < 16) (hrsv : f.rsv = 0) (hk : f.k < 2)
    (hm : f.m < 32) (hn : f.n < 32) :
    (encodeOperands op f).op = op ∧ wordFields (encodeOperands op f) = f := by
  obtain ⟨hop', hrd', hra', hrb', hrc', hrsv', hk', hm', hn'⟩ :=
    fields_encodeFields hop f.rd.isLt f.ra.isLt f.rb.isLt f.rc.isLt hk hm hn
  exact ⟨hop', by simp only [encodeOperands, wordFields, hrd', hra', hrb', hrc', hrsv', hk', hm', hn', ← hrsv]⟩

/-- A reserved word is its opcode and its other 28 bits (R87). -/
theorem encode_reservedCommand {w : Word} (hop : 0xD ≤ w.op) :
    encode (reservedCommand w.op (w.setWidth 28)) = w := by
  have hlt := op_lt_sixteen w
  have hencode : encode (reservedCommand w.op (w.setWidth 28)) = encodeReserved w.op (w.setWidth 28) := by
    generalize w.op = op at *
    interval_cases op <;> rfl
  have hsum : w.op * 2 ^ 28 + w.toNat % 2 ^ 28 = w.toNat := by
    have := w.isLt
    rw [Word.op, Word.field]
    omega
  rw [hencode, encodeReserved, BitVec.toNat_setWidth, hsum, BitVec.ofNat_toNat, BitVec.setWidth_eq]

/-- The other 28 bits of a reserved word are its payload (R87). -/
theorem setWidth_encodeReserved (op : Nat) (p : BitVec 28) : (encodeReserved op p).setWidth 28 = p := by
  apply BitVec.eq_of_toNat_eq
  rw [encodeReserved, BitVec.toNat_setWidth, BitVec.toNat_ofNat]
  have := p.isLt
  omega

/-- A command of the table is read back from its word (R81, R83, R85). -/
theorem decode_encode_of_table {i : Instr} (h : i.WellFormed) (hop : i.opcode ≤ 0xC) :
    decode (encode i) = .ok i := by
  obtain ⟨hk, hm, hn⟩ := usedFields_fit h
  obtain ⟨hop', hfields⟩ :=
    fields_encodeOperands (Nat.lt_of_le_of_lt hop (by decide)) (usedFields_rsv i) hk hm hn
  rw [← encode_of_table hop] at hop' hfields
  have hle : (encode i).op ≤ 0xC := hop'.trans_le hop
  have hcommand : tableCommand (encode i).op (wordFields (encode i)) = i := by
    rw [hop', hfields, tableCommand_usedFields hop]
  have hclear : encode i &&& zeroMask (encode i).op = 0 := by
    rw [and_zeroMask_eq_zero_iff_usedFields hle, hcommand, hfields]
  rw [decode_of_table hle, if_pos hclear, hcommand]

/-- A reserved command is read back from its word (R85, R87). -/
theorem decode_encodeReserved {op : Nat} (hop : 0xD ≤ op) (hlt : op < 16) (p : BitVec 28) :
    decode (encodeReserved op p) = .ok (reservedCommand op p) := by
  have hop' := op_encodeReserved hlt p
  rw [decode_of_reserved (hop.trans_eq hop'.symm), hop', setWidth_encodeReserved]

/-- Settles O2: a command of the table is read back field by field, a reserved one by its 28 bits. -/
theorem decodeOfEncode : Obligations.DecodeOfEncode := by
  intro i h
  cases i with
  | reservedD p | reservedE p | reservedF p => exact decode_encodeReserved (by decide) (by decide) p
  | _ => exact decode_encode_of_table h (by simp [Instr.opcode])

/-- A legal word of an opcode 0x0 to 0xC is the word of its command (R83, R85). -/
theorem encode_tableCommand {w : Word} (hop : w.op ≤ 0xC) (hclear : w &&& zeroMask w.op = 0) :
    encode (tableCommand w.op (wordFields w)) = w := by
  have hopcode := opcode_tableCommand hop (wordFields w)
  have hfields := (and_zeroMask_eq_zero_iff_usedFields hop).1 hclear
  have hrsv : w.rsv = 0 := (congrArg Fields.rsv hfields).symm.trans (usedFields_rsv _)
  rw [encode_of_table (hopcode.trans_le hop), hopcode, hfields, encodeOperands_wordFields hrsv]

/-- Settles O3: the fields a legal word does not use are 0, so its command's word has the same fields. -/
theorem encodeOfDecode : Obligations.EncodeOfDecode := by
  intro w i h
  by_cases hop : w.op ≤ 0xC
  · obtain ⟨hclear, rfl⟩ := of_decode_of_table hop h
    exact ⟨tableCommand_wellFormed _ (field_five_lt w 5) (field_five_lt w 0), encode_tableCommand hop hclear⟩
  · have hres : 0xD ≤ w.op := Nat.lt_of_not_le hop
    rw [decode_of_reserved hres] at h
    cases h
    exact ⟨reservedCommand_wellFormed _ _, encode_reservedCommand hres⟩

/-! ### The rows of the opcode table (R84) -/

/-- A word that matches under a mask has the match's fields wherever the mask has all of a field's bits. -/
theorem field_of_and_mask {w mask matched : Word} {lo width : Nat} (h : w &&& mask = matched)
    (hmask : mask.field lo width = 2 ^ width - 1) : w.field lo width = matched.field lo width := by
  rw [← h, field_and_mask hmask]

/-- A word that matches a row whose mask has the opcode and all that must be zero decodes to the command the table
has for the opcode. The premises but the first are closed facts about the row. -/
theorem decode_of_row {w mask matched : Word} {op : Nat} (h : w &&& mask = matched) (hmask : mask.op = 15)
    (hmatched : matched.op = op) (hop : op ≤ 0xC) (hzero : mask &&& zeroMask op = zeroMask op)
    (hclear : matched &&& zeroMask op = 0) : decode w = .ok (tableCommand op (wordFields w)) := by
  have hw : w.op = op := (field_of_and_mask (width := 4) h hmask).trans hmatched
  have hlegal : w &&& zeroMask w.op = 0 := by rw [hw, ← hzero, ← BitVec.and_assoc, h, hclear]
  rw [decode_of_table (hw.trans_le hop), if_pos hlegal, hw]

/-- A word that matches the row of a reserved opcode decodes to its reserved command (R87). -/
theorem decode_of_reserved_row {w matched : Word} {op : Nat} (h : w &&& 0xF0000000 = matched)
    (hmatched : matched.op = op) (hop : 0xD ≤ op) : decode w = .ok (reservedCommand op (w.setWidth 28)) := by
  have hw : w.op = op := (field_of_and_mask (width := 4) h (by decide)).trans hmatched
  rw [decode_of_reserved (hop.trans_eq hw.symm), hw]

/-- Settles O4: each row's mask has the opcode and the must-be-zero bits, and APPLY's two rows the kind bit. -/
theorem tableRowsDecode : Obligations.TableRowsDecode := by
  intro w
  refine ⟨?nop, ?ident, ?mov, ?mul, ?mvmul, ?cmpeq, ?swapgen, ?addgen, ?applyAdd, ?applySwap, ?compose, ?logclr,
    ?keyderive, ?verify, ?reservedD, ?reservedE, ?reservedF⟩ <;> intro h
  case nop => rw [h]; decide
  case logclr => rw [h]; decide
  case applyAdd | applySwap =>
    have hk : (wordFields w).k = _ := field_of_and_mask (lo := 10) (width := 1) h (by decide)
    rw [decode_of_row (op := 0x8) h (by decide) (by decide) (by decide) (by decide) (by decide), tableCommand, hk]
    rfl
  case reservedD | reservedE | reservedF => exact decode_of_reserved_row h rfl (by decide)
  all_goals exact decode_of_row h (by decide) rfl (by decide) (by decide) (by decide)

/-! ### The three classes of words (R86) -/

/-- StaticCheck on an opcode 0x0 to 0xC (R202). -/
theorem staticCheck_of_table {w : Word} (hop : w.op ≤ 0xC) :
    staticCheck w = if w &&& zeroMask w.op = 0 then .none else .reservedField := by
  rw [staticCheck, if_neg (by omega), ite_not]

/-- StaticCheck on an opcode 0xD to 0xF (R87, R202). -/
theorem staticCheck_of_reserved {w : Word} (hop : 0xD ≤ w.op) : staticCheck w = .illegalOpcode := if_pos hop

/-- The only legal word with opcode 0 is 0 (R86). -/
theorem decode_ok_iff_of_op_zero {w : Word} (hop : w.op = 0) : (∃ i, decode w = .ok i) ↔ w = 0 := by
  constructor
  · rintro ⟨i, hi⟩
    have hle : w.op ≤ 0xC := hop.trans_le (Nat.zero_le _)
    obtain ⟨hclear, -⟩ := of_decode_of_table hle hi
    rw [← encode_tableCommand hle hclear, hop]
    rfl
  · rintro rfl
    exact ⟨.nop, by decide⟩

/-- Settles O5: by the opcode, and below 0xD by the must-be-zero mask. -/
theorem everyWordHasOneOutcome : Obligations.EveryWordHasOneOutcome := by
  refine fun w => ⟨?_, decode_ok_iff_of_op_zero⟩
  by_cases hop : w.op ≤ 0xC
  · rw [decode_of_table hop, staticCheck_of_table hop]
    by_cases hclear : w &&& zeroMask w.op = 0
    · rw [if_pos hclear, if_pos hclear]
      exact .inl ⟨rfl, hop, hclear, _, rfl, opcode_tableCommand hop _⟩
    · rw [if_neg hclear, if_neg hclear]
      exact .inr (.inl ⟨rfl, hop, hclear, rfl⟩)
  · have hres : 0xD ≤ w.op := Nat.lt_of_not_le hop
    exact .inr (.inr ⟨staticCheck_of_reserved hres, hres, _, decode_of_reserved hres,
      opcode_reservedCommand hres (op_lt_sixteen w) _⟩)

/-! ### Words that run no working command (R83, R87) -/

/-- Settles O7: the decoder rejects the word, and the Engine's turn completes it with the code. -/
theorem reservedFieldWordFails : Obligations.ReservedFieldWordFails := by
  intro s hnext hv hop hmask
  have hreject : decode s.eventTaken.pend = .error .reservedField := (decode_of_table hop).trans (if_neg hmask)
  rw [step_of_engineNext hnext]
  rcases engineTurn_pending (s := s.eventTaken) hv with ⟨i, hi, -⟩ | ⟨-, hturn⟩
  · rw [hreject] at hi; cases hi
  · exact ⟨_, hturn, failed_finish _ _⟩

/-- A reserved command completes with ILLEGAL_OPCODE and nothing else (R87). -/
theorem exec_reservedCommand (op : Nat) (p : BitVec 28) (s : State) :
    exec (reservedCommand op p) s = .next (s.finish .illegalOpcode) := by
  unfold reservedCommand
  split <;> rfl

/-- Settles O8: each reserved command is an error and no more, and a word of such an opcode decodes to one. -/
theorem reservedOpcodeFails : Obligations.ReservedOpcodeFails := by
  refine ⟨fun p s => ?_, fun s hnext hv hop => ?_⟩
  · exact ⟨⟨_, exec_reservedCommand 0xD p s, failed_finish _ s⟩, ⟨_, exec_reservedCommand 0xE p s, failed_finish _ s⟩,
      ⟨_, exec_reservedCommand 0xF p s, failed_finish _ s⟩⟩
  · rw [step_of_engineNext hnext, engineTurn_of_decode (s := s.eventTaken) hv (decode_of_reserved hop),
      exec_reservedCommand]
    exact ⟨_, rfl, failed_finish _ _⟩

/-- Settles O1: each of the nine words is read by the decoder. -/
theorem specWordsDecode : Obligations.SpecWordsDecode := by
  unfold Obligations.SpecWordsDecode
  decide

end Sys2Proof.Machine

/-! SUPPORT. The statements of 40_matrix.md: how a command that only succeeds ends (R206), the product by its cells and
its laws (R106, R110, R111), the matrix-vector product (R109), cell-wise equality (R108), and the six commands. -/

namespace Sys2Proof.Machine

/-! ### The frame of a command that succeeds -/

/-- A completion touches nothing more than the writes before it (R22, R206). -/
theorem Untouched.finish {s w : State} (h : Untouched s w) (c : ErrCode) : Untouched s (w.finish c) :=
  ⟨h.ctrl, h.dim, h.iter, h.policy, h.pend, h.events, h.responses⟩

/-- A matrix register written and the command completed: everything else is as before (R22, R206). -/
theorem setM_finish_frame (s : State) (rd : RegNo) (X : Mat) :
    MatsKeptExcept rd s ((s.setM rd X).finish .none) ∧ RestKept s ((s.setM rd X).finish .none) ∧
      Completed .none s ((s.setM rd X).finish .none) ∧ Untouched s ((s.setM rd X).finish .none) := by
  have hmats : MatsKeptExcept rd s ((s.setM rd X).finish .none) := fun _ hr => s.setM_M_ne X hr
  have hset : Untouched s (s.setM rd X) := ⟨rfl, rfl, rfl, rfl, rfl, rfl, rfl⟩
  exact ⟨hmats, ⟨rfl, rfl, rfl, rfl⟩, completed_finish rfl rfl, hset.finish .none⟩

/-- Settles O9: NOP is a completion with nothing written before it. -/
theorem nopChangesNothing : Obligations.NopChangesNothing := fun s =>
  ⟨_, rfl, completed_finish rfl rfl, ⟨rfl, rfl, rfl, rfl, rfl⟩, (commandWrites_untouched .nop s).finish .none⟩

/-- Settles O11: the value written is M[ra] of the state before, and the rest is the frame of a matrix write. -/
theorem movCopiesMatrix : Obligations.MovCopiesMatrix := fun rd ra s =>
  ⟨_, rfl, s.setM_M_self rd (s.M ra), setM_finish_frame s rd (s.M ra)⟩

/-- Settles O10: the value written is Ident(DIM), read by its cells. -/
theorem identLoadsIdentity : Obligations.IdentLoadsIdentity := by
  intro rd s hN
  refine ⟨_, rfl, fun i j => ?_, setM_finish_frame s rd (ident s.N)⟩
  rw [State.finish_M, State.setM_M_self, cell_ident]
  simp only [Bool.and_eq_true, decide_eq_true_eq]
  omega

/-! ### The product, cell by cell -/

/-- Cell (i, j) of the product is the integer sum reduced mod 2; a row past the last adds up to 0 (R106, R113). -/
theorem cellNat_matMul (A B : Mat) (N i j : Nat) :
    (matMul A B N).cellNat i j =
      if i < N then (∑ k ∈ Finset.range N, A.cellNat i k * B.cellNat k j) % 2 else 0 := by
  rw [Mat.cellNat, cell_matMul]
  by_cases hN : i < N
  · by_cases h32 : i < 32
    · rw [if_pos hN, decide_eq_true hN, decide_eq_true h32]
      exact xorProducts_toNat A B i j N
    · have hrow (k : Nat) : A.cellNat i k = 0 := by
        rw [Mat.cellNat, A.cell_of_ge_row k (Nat.le_of_not_lt h32), Bool.toNat_false]
      simp [hrow, h32]
  · simp [hN]

/-- Cell (i, j) of the product in the field of two elements (R17, R106). -/
theorem natCast_cellNat_matMul (A B : Mat) (N i j : Nat) :
    ((matMul A B N).cellNat i j : ZMod 2) =
      if i < N then ∑ k ∈ Finset.range N, (A.cellNat i k : ZMod 2) * B.cellNat k j else 0 := by
  rw [cellNat_matMul]
  split
  · rw [ZMod.natCast_mod, Nat.cast_sum]
    simp only [Nat.cast_mul]
  · exact Nat.cast_zero

/-- A cell is determined by its number in the field of two elements. -/
theorem Mat.cell_eq_of_natCast_eq {A B : Mat} {i j : Nat} (h : (A.cellNat i j : ZMod 2) = B.cellNat i j) :
    A.cell i j = B.cell i j := by
  have hbit (X : Mat) : X.cellNat i j < 2 := Bool.toNat_lt _
  have hmod := (ZMod.natCast_eq_natCast_iff' ..).1 h
  rw [Nat.mod_eq_of_lt (hbit A), Nat.mod_eq_of_lt (hbit B)] at hmod
  exact Function.LeftInverse.injective Bool.ofNat_toNat hmod

/-- A cell outside the region is the integer 0 (R24). -/
theorem Mat.InRegion.cellNat_eq_zero {N : Nat} {A : Mat} (h : A.InRegion N) {i j : Nat} (hij : N ≤ i ∨ N ≤ j) :
    A.cellNat i j = 0 := by
  rw [Mat.cellNat, h i j hij, Bool.toNat_false]

/-- The product of matrices in the region is the integer product reduced mod 2 (R106, R113). -/
theorem cellNat_matMul_eq_productMod2 {N : Nat} {B : Mat} (A : Mat) (hB : B.InRegion N) (i j : Nat) :
    (matMul A B N).cellNat i j = productMod2 N A B i j := by
  by_cases hj : j < N
  · simp only [cellNat_matMul, productMod2, hj, and_true]
  · rw [(inRegion_matMul A hB).cellNat_eq_zero (.inr (Nat.le_of_not_lt hj)), productMod2, if_neg (fun h => hj h.2)]

/-- Settles O12: the value written is the product of the operands as they were, read by its cells. -/
theorem mulIsProductMod2 : Obligations.MulIsProductMod2 := by
  intro rd ra rb s hdata
  refine ⟨_, rfl, fun i j => ?_, setM_finish_frame s rd (matMul (s.M ra) (s.M rb) s.N)⟩
  rw [State.finish_M, State.setM_M_self]
  exact cellNat_matMul_eq_productMod2 (s.M ra) (hdata.1 rb) i j

/-! ### The laws of the product -/

/-- Settles O17: cell by cell, both sides are the double sum of A[i][l]·B[l][k]·C[k][j] in the field. -/
theorem matMulAssociative : Obligations.MatMulAssociative := by
  intro N A B C
  refine Mat.ext_cell fun i j _ _ => Mat.cell_eq_of_natCast_eq ?_
  simp only [natCast_cellNat_matMul]
  split
  · calc ∑ k ∈ Finset.range N, (∑ l ∈ Finset.range N, (A.cellNat i l : ZMod 2) * B.cellNat l k) * C.cellNat k j
        = ∑ k ∈ Finset.range N, ∑ l ∈ Finset.range N,
            (A.cellNat i l : ZMod 2) * (B.cellNat l k * C.cellNat k j) := by
          simp only [Finset.sum_mul, mul_assoc]
      _ = ∑ l ∈ Finset.range N, (A.cellNat i l : ZMod 2) *
            ∑ k ∈ Finset.range N, (B.cellNat l k : ZMod 2) * C.cellNat k j := by
          rw [Finset.sum_comm]
          simp only [Finset.mul_sum]
      _ = _ := Finset.sum_congr rfl fun l hl => by rw [if_pos (Finset.mem_range.1 hl)]
  · rfl

/-- A cell of the identity in the field of two elements (R107). -/
theorem natCast_cellNat_ident {N i j : Nat} (hN : i < N) (h32 : i < 32 ∨ j < 32) :
    ((ident N).cellNat i j : ZMod 2) = if i = j then 1 else 0 := by
  rw [Mat.cellNat, cell_ident, decide_eq_true hN]
  by_cases hij : i = j
  · subst hij
    simp [or_self_iff.1 h32]
  · simp [hij, Ne.symm hij]

/-- The identity on the left selects a row of the other factor (R110). -/
theorem matMul_ident_left {N : Nat} {X : Mat} (hX : X.InRegion N) : matMul (ident N) X N = X := by
  refine Mat.ext_cell fun i j hi _ => Mat.cell_eq_of_natCast_eq ?_
  rw [natCast_cellNat_matMul]
  by_cases hN : i < N
  · simp [natCast_cellNat_ident hN (.inl hi), hN]
  · rw [if_neg hN, hX.cellNat_eq_zero (.inl (Nat.le_of_not_lt hN)), Nat.cast_zero]

/-- The identity on the right selects a column of the other factor (R110). -/
theorem matMul_ident_right {N : Nat} {X : Mat} (hX : X.InRegion N) : matMul X (ident N) N = X := by
  refine Mat.ext_cell fun i j _ hj => Mat.cell_eq_of_natCast_eq ?_
  have hident : ∀ k ∈ Finset.range N,
      (X.cellNat i k : ZMod 2) * (ident N).cellNat k j = if k = j then (X.cellNat i k : ZMod 2) else 0 := by
    intro k hk
    rw [natCast_cellNat_ident (Finset.mem_range.1 hk) (.inr hj), mul_ite, mul_one, mul_zero]
  rw [natCast_cellNat_matMul, Finset.sum_congr rfl hident, Finset.sum_ite_eq']
  simp only [Finset.mem_range, ← ite_and]
  split
  · rfl
  · rw [hX.cellNat_eq_zero (by omega), Nat.cast_zero]

/-- Settles O16: a factor of the identity selects the rows, or the columns, of the other. -/
theorem identityLaw : Obligations.IdentityLaw := fun _ _ hX => ⟨matMul_ident_left hX, matMul_ident_right hX⟩

/-! ### The matrix-vector product -/

/-- A sum of terms that are 0 from a bound on, taken up to two ends past the bound. -/
theorem sum_range_eq_of_zero_from {f : Nat → Nat} {N len : Nat} (hN : ∀ k, N ≤ k → f k = 0)
    (hlen : ∀ k, len ≤ k → f k = 0) : ∑ k ∈ Finset.range len, f k = ∑ k ∈ Finset.range N, f k := by
  rcases Nat.le_total N len with h | h
  · exact Finset.eventually_constant_sum hN h
  · exact (Finset.eventually_constant_sum hlen h).symm

/-- The parity of a masked row is the sum of the products of bits mod 2, for a vector in the region (R14, R109). -/
theorem parity_row_and_toNat (A : Mat) {v : Word} {N : Nat} (hv : vecInRegion N v) (i : Nat) :
    (parity (A.row i &&& v)).toNat = (∑ k ∈ Finset.range N, A.cellNat i k * vecNat v k) % 2 := by
  have hbit (k : Nat) : ((A.row i &&& v).getLsbD k).toNat = A.cellNat i k * vecNat v k := by
    rw [BitVec.getLsbD_and, Mat.cellNat, Mat.cell, vecNat]
    cases (A.row i).getLsbD k <;> simp
  have hvec (k : Nat) (hk : N ≤ k ∨ 32 ≤ k) : A.cellNat i k * vecNat v k = 0 := by
    have hzero : v.getLsbD k = false := hk.elim (hv k) (BitVec.getLsbD_of_ge v k)
    rw [vecNat, hzero, Bool.toNat_false, Nat.mul_zero]
  simp only [parity_toNat, hbit]
  rw [sum_range_eq_of_zero_from (fun k hk => hvec k (.inl hk)) (fun k hk => hvec k (.inr hk))]

/-- Element i of the matrix-vector product is the sum mod 2, for a vector in the region (R109, R113). -/
theorem vecNat_matVec (A : Mat) {v : Word} {N : Nat} (hv : vecInRegion N v) (i : Nat) :
    vecNat (matVec A v N) i =
      if i < N then (∑ k ∈ Finset.range N, A.cellNat i k * vecNat v k) % 2 else 0 := by
  rw [← parity_row_and_toNat A hv, vecNat, getLsbD_matVec]
  by_cases h32 : i < 32
  · by_cases hN : i < N <;> simp [hN, h32]
  · have hparity : parity (A.row i &&& v) = false := by
      rw [A.row_of_ge (Nat.le_of_not_lt h32), show (0 : Word) &&& v = 0 from BitVec.zero_and]
      decide
    simp [hparity]

/-- Settles O13: the value written is the product of the operands as they were, read by its elements. -/
theorem mvmulIsProductMod2 : Obligations.MvmulIsProductMod2 := by
  intro rd ra rb s hdata
  refine ⟨_, rfl, fun i => ?_, fun r hr => s.setV_V_ne _ hr, rfl, rfl, rfl, rfl, completed_finish rfl rfl,
    (commandWrites_untouched (.mvmul rd ra rb) s).finish .none⟩
  rw [State.finish_V, State.setV_V_self]
  exact vecNat_matVec (s.M ra) (hdata.2 rb) i

/-! ### Cell-wise equality -/

/-- `MatEq` answers 1 exactly when the cells of the region agree (R108, R24). -/
theorem matEq_iff_sameCells {N : Nat} {A B : Mat} (hA : A.InRegion N) (hB : B.InRegion N) :
    matEq A B N = true ↔ SameCells N A B := by
  rw [matEq_iff]
  constructor
  · intro hrow i j hi _
    exact congrArg (fun w : Word => w.getLsbD j) (hrow i hi)
  · intro hcell i hi
    refine word_ext fun j _ => ?_
    rcases Nat.lt_or_ge j N with hj | hj
    · exact hcell i j hi hj
    · exact (hA i j (.inr hj)).trans (hB i j (.inr hj)).symm

/-- Matrices in the region agree on its cells exactly when they are the same (R24, R108). -/
theorem sameCells_iff_eq {N : Nat} {A B : Mat} (hA : A.InRegion N) (hB : B.InRegion N) :
    SameCells N A B ↔ A = B := by
  refine ⟨fun hcell => Mat.ext_cell fun i j _ _ => ?_, fun h _ _ _ _ => by rw [h]⟩
  by_cases hregion : i < N ∧ j < N
  · exact hcell i j hregion.1 hregion.2
  · have hout : N ≤ i ∨ N ≤ j := by omega
    exact (hA i j hout).trans (hB i j hout).symm

/-- Settles O14: EQ is `MatEq` of the operands, which compares the cells of the region. -/
theorem cmpeqComparesCells : Obligations.CmpeqComparesCells := by
  intro ra rb s hdata
  have hcells := matEq_iff_sameCells (hdata.1 ra) (hdata.1 rb)
  exact ⟨_, rfl, hcells, hcells.trans (sameCells_iff_eq (hdata.1 ra) (hdata.1 rb)), rfl, rfl, rfl, rfl,
    completed_finish rfl rfl, (commandWrites_untouched (.cmpeq ra rb) s).finish .none⟩

end Sys2Proof.Machine

/-! SUPPORT. The statements of 41_generators.md: the generated matrices by their cells (R134, R135), the index errors in
order (R131, R132, R152, R201), and elementary matrices as Mathlib's swap matrices and transvections over the field of
two elements, whose action on rows and columns and whose squares (R136 to R138) are then the library's. -/

namespace Sys2Proof.Machine

/-! ### The index errors -/

/-- A command whose checks give an error completes with it and has no other effect (R203, R206). -/
theorem exec_failed_of_commandCheck {i : Instr} {s : State} {c : ErrCode} (h : commandCheck i s = c)
    (hc : c ≠ .none) : ∃ t, exec i s = .next t ∧ Failed c s t :=
  ⟨s.finish c, by rw [exec_eq_unlessError, h, unlessError_error hc], failed_finish c s⟩

/-- An index error is what the checks of each command with indices give (R201). -/
theorem commandCheck_of_indexCheck {rd : RegNo} {m n : Nat} {s : State} {i : Instr} {c : ErrCode}
    (hi : i = .swapgen rd m n ∨ i = .addgen rd m n ∨ i = .applyAdd rd m n ∨ i = .applySwap rd m n)
    (h : indexCheck s.N m n = c) (hc : c ≠ .none) : commandCheck i s = c := by
  subst h
  rcases hi with rfl | rfl | rfl | rfl
  · rfl
  · rfl
  · exact applyCheck_index hc
  · exact applyCheck_index hc

/-- A valid pair with a full log is LOG_FULL (R152, R201). -/
theorem applyCheck_full {s : State} {m n : Nat} (h : indexCheck s.N m n = .none) (hlog : s.loglen = 1024) :
    applyCheck s m n = .logFull := by
  rw [applyCheck, h]
  exact if_pos hlog

/-- Settles O20: the index checks come first in all four commands, LOG_FULL after them in APPLY. -/
theorem indexErrorsInOrder : Obligations.IndexErrorsInOrder := by
  intro rd m n s i hi
  refine ⟨fun hrange => ?_, fun hm _ heq => ?_, fun hm hn hne hlog happly => ?_⟩
  · exact exec_failed_of_commandCheck (commandCheck_of_indexCheck hi (indexCheck_range hrange) nofun) nofun
  · exact exec_failed_of_commandCheck (commandCheck_of_indexCheck hi (indexCheck_equal hm heq) nofun) nofun
  · have hcheck : applyCheck s m n = .logFull := applyCheck_full (indexCheck_none.2 ⟨hm, hn, hne⟩) hlog
    rcases happly with rfl | rfl <;> exact exec_failed_of_commandCheck hcheck nofun

/-! ### The generated matrices, cell by cell -/

/-- The cells of Swap(m, n): the source's formula (R131, R134). -/
theorem cell_swapMat {N m n : Nat} (hN : N ≤ 32) (hm : m < N) (hn : n < N) (i j : Nat) :
    (swapMat N m n).cell i j = true ↔
      i < N ∧ ((i = j ∧ i ≠ m ∧ i ≠ n) ∨ (i = m ∧ j = n) ∨ (i = n ∧ j = m)) := by
  rw [Mat.cell, row_swapMat]
  split
  · split_ifs <;> simp <;> omega
  · simp
    omega

/-- The cells of AddRow(m, n): the diagonal and (m, n) (R132, R135). -/
theorem cell_addMat {N m n : Nat} (hN : N ≤ 32) (hm : m < N) (hn : n < N) (i j : Nat) :
    (addMat N m n).cell i j = true ↔ (i < N ∧ i = j) ∨ (i = m ∧ j = n) := by
  rw [Mat.cell, row_addMat]
  split
  · split <;> simp <;> omega
  · simp
    omega

/-! ### The generator commands -/

/-- A command whose checks pass and whose one write is of a matrix register completes with it written, and with
everything else as before (R22, R206). -/
theorem exec_setM {i : Instr} {s : State} {rd : RegNo} {X : Mat} (hcheck : commandCheck i s = .none)
    (hwrites : commandWrites i s = s.setM rd X) :
    ∃ t, exec i s = .next t ∧ t.M rd = X ∧
      MatsKeptExcept rd s t ∧ RestKept s t ∧ Completed .none s t ∧ Untouched s t :=
  ⟨(s.setM rd X).finish .none, by rw [exec_eq_unlessError, hcheck, hwrites, unlessError_none], s.setM_M_self rd X,
    setM_finish_frame s rd X⟩

/-- Settles O18: the index checks pass, and the matrix written is Swap(m, n), read by its cells. -/
theorem swapgenBuildsSwap : Obligations.SwapgenBuildsSwap := by
  intro rd m n s hN hm hn hne
  have hcheck : commandCheck (.swapgen rd m n) s = .none := indexCheck_none.2 ⟨hm, hn, hne⟩
  obtain ⟨t, ht, hM, hframe⟩ := exec_setM hcheck rfl
  exact ⟨t, ht, fun i j => hM ▸ cell_swapMat hN hm hn i j, hframe⟩

/-- Settles O19: the index checks pass, and the matrix written is AddRow(m, n), read by its cells. -/
theorem addgenBuildsAddRow : Obligations.AddgenBuildsAddRow := by
  intro rd m n s hN hm hn hne
  have hcheck : commandCheck (.addgen rd m n) s = .none := indexCheck_none.2 ⟨hm, hn, hne⟩
  obtain ⟨t, ht, hM, hframe⟩ := exec_setM hcheck rfl
  exact ⟨t, ht, fun i j => hM ▸ cell_addMat hN hm hn i j, hframe⟩

/-! ### Elementary matrices over the field of two elements -/

/-- Matrices in the region are determined by their leading cells in the field of two elements (R17, R24). -/
theorem Mat.eq_of_toGF2_eq {N : Nat} {A B : Mat} (hA : A.InRegion N) (hB : B.InRegion N)
    (h : A.toGF2 N = B.toGF2 N) : A = B := by
  refine (sameCells_iff_eq hA hB).1 fun i j hi hj => Mat.cell_eq_of_natCast_eq ?_
  rw [← toGF2_eq_natCast N A ⟨i, hi⟩ ⟨j, hj⟩, h, toGF2_eq_natCast]

/-- A product over the field of two elements gives `MatMul` of matrices in the region (R17, R106). -/
theorem matMul_eq_of_toGF2 {N : Nat} {A B C : Mat} (hN : N ≤ 32) (hB : B.InRegion N) (hC : C.InRegion N)
    (h : A.toGF2 N * B.toGF2 N = C.toGF2 N) : matMul A B N = C :=
  Mat.eq_of_toGF2_eq (inRegion_matMul A hB) hC ((matMulIsGF2Product N A B hN).trans h)

/-- `Ident(N)` is the identity over the field of two elements (R107). -/
theorem toGF2_ident {N : Nat} (hN : N ≤ 32) : (ident N).toGF2 N = 1 := by
  ext i j
  rw [toGF2_eq_natCast, natCast_cellNat_ident i.isLt (.inl (i.isLt.trans_le hN)), Matrix.one_apply]
  simp only [Fin.ext_iff]

/-- Swap(m, n) is the library's swap matrix (R134). -/
theorem toGF2_swapMat {N : Nat} (hN : N ≤ 32) (m n : Fin N) :
    (swapMat N m n).toGF2 N = Matrix.swap (ZMod 2) m n := by
  ext i j
  rw [Mat.toGF2, Matrix.swap, Equiv.Perm.permMatrix, PEquiv.toMatrix_apply]
  refine if_congr ?_ rfl rfl
  rw [cell_swapMat hN m.isLt n.isLt, Equiv.toPEquiv_apply, Option.mem_some_iff, Equiv.swap_apply_def]
  split_ifs <;> omega

/-- AddRow(m, n) is the library's transvection (R135). -/
theorem toGF2_addMat {N : Nat} (hN : N ≤ 32) {m n : Fin N} (hne : m ≠ n) :
    (addMat N m n).toGF2 N = Matrix.transvection m n 1 := by
  ext i j
  have hcell : (addMat N m n).cell i j = true ↔ i = j ∨ (m = i ∧ n = j) := by
    rw [cell_addMat hN m.isLt n.isLt]
    omega
  simp only [Mat.toGF2, hcell, Matrix.transvection, Matrix.add_apply, Matrix.one_apply, Matrix.single_apply]
  by_cases hij : i = j
  · rw [if_pos (.inl hij), if_pos hij, if_neg (by omega), add_zero]
  · simp only [hij, false_or, if_false, zero_add]

/-- Entries over the field of two elements are equal when the cells are (R17). -/
theorem toGF2_congr {N : Nat} {A B : Mat} {i j k l : Fin N} (h : A.cell i j = B.cell k l) :
    A.toGF2 N i j = B.toGF2 N k l := by
  rw [Mat.toGF2, Mat.toGF2, h]

/-- The XOR of two cells is the sum of their entries over the field of two elements (R17). -/
theorem toGF2_eq_add_of_cell_eq_xor {N : Nat} {A B : Mat} {i j k l k' l' : Fin N}
    (h : A.cell i j = (B.cell k l ^^ B.cell k' l')) : A.toGF2 N i j = B.toGF2 N k l + B.toGF2 N k' l' := by
  rw [Mat.toGF2, Mat.toGF2, Mat.toGF2, h]
  cases B.cell k l <;> cases B.cell k' l' <;> rfl

/-! ### Row and column operations -/

/-- Cell (i, j) after a row exchange (R136). -/
theorem cell_rowSwap (X : Mat) (m n i j : Nat) :
    (rowSwap X m n).cell i j =
      (decide (i < 32) && if i = m then X.cell n j else if i = n then X.cell m j else X.cell i j) := by
  rw [Mat.cell, row_rowSwap]
  by_cases hi : i < 32
  · rw [if_pos hi, decide_eq_true hi, Bool.true_and]
    split_ifs <;> rfl
  · simp [hi]

/-- Cell (i, j) after a row addition (R136). -/
theorem cell_rowAdd (X : Mat) (m n i j : Nat) :
    (rowAdd X m n).cell i j =
      (decide (i < 32) && if i = m then X.cell m j ^^ X.cell n j else X.cell i j) := by
  rw [Mat.cell, row_rowAdd]
  by_cases hi : i < 32
  · rw [if_pos hi, decide_eq_true hi, Bool.true_and]
    split_ifs
    · exact BitVec.getLsbD_xor
    · rfl
  · simp [hi]

section InRegion

variable {N : Nat} {X : Mat}

/-- A row exchange within the region stays there. -/
theorem inRegion_rowSwap {m n : Nat} (hX : X.InRegion N) (hm : m < N) (hn : n < N) :
    (rowSwap X m n).InRegion N := by
  intro i j hij
  rw [cell_rowSwap]
  split_ifs <;> rw [hX _ _ (by omega), Bool.and_false]

/-- A row addition to a row within the region stays there. -/
theorem inRegion_rowAdd {m : Nat} (hX : X.InRegion N) (hm : m < N) (n : Nat) : (rowAdd X m n).InRegion N := by
  intro i j hij
  rw [cell_rowAdd]
  split_ifs
  · rw [hX m j (by omega), hX n j (by omega), Bool.xor_self, Bool.and_false]
  · rw [hX i j hij, Bool.and_false]

/-- A column exchange within the region stays there. -/
theorem inRegion_colSwap {m n : Nat} (hX : X.InRegion N) (hm : m < N) (hn : n < N) :
    (colSwap X m n).InRegion N := by
  intro i j hij
  rw [cell_colSwap]
  split_ifs <;> rw [hX _ _ (by omega), Bool.and_false]

/-- A column addition to a column within the region stays there. -/
theorem inRegion_colAdd {n : Nat} (hX : X.InRegion N) (m : Nat) (hn : n < N) : (colAdd X m n).InRegion N := by
  intro i j hij
  rw [cell_colAdd]
  split_ifs
  · rw [hX i n (by omega), hX i m (by omega), Bool.xor_self, Bool.and_false]
  · rw [hX i j hij, Bool.and_false]

end InRegion

section ToGF2

variable {N : Nat}

/-- A row exchange is the library's swap matrix on the left (R136). -/
theorem toGF2_rowSwap (hN : N ≤ 32) (X : Mat) (m n : Fin N) :
    (rowSwap X m n).toGF2 N = Matrix.swap (ZMod 2) m n * X.toGF2 N := by
  ext i j
  have hi : i.val < 32 := i.isLt.trans_le hN
  by_cases hm : i = m
  · subst hm
    rw [Matrix.swap_mul_apply_left]
    exact toGF2_congr (by simp [cell_rowSwap, hi])
  · by_cases hn : i = n
    · subst hn
      rw [Matrix.swap_mul_apply_right]
      exact toGF2_congr (by simp [cell_rowSwap, hi, Fin.val_inj, hm])
    · rw [Matrix.swap_mul_of_ne hm hn]
      exact toGF2_congr (by simp [cell_rowSwap, hi, Fin.val_inj, hm, hn])

/-- A row addition is the library's transvection on the left (R136). -/
theorem toGF2_rowAdd (hN : N ≤ 32) (X : Mat) (m n : Fin N) :
    (rowAdd X m n).toGF2 N = Matrix.transvection m n 1 * X.toGF2 N := by
  ext i j
  have hi : i.val < 32 := i.isLt.trans_le hN
  by_cases hm : i = m
  · subst hm
    rw [Matrix.transvection_mul_apply_same, one_mul]
    exact toGF2_eq_add_of_cell_eq_xor (by simp [cell_rowAdd, hi])
  · rw [Matrix.transvection_mul_apply_of_ne _ _ _ _ hm]
    exact toGF2_congr (by simp [cell_rowAdd, hi, Fin.val_inj, hm])

/-- A column exchange is the library's swap matrix on the right (R137). -/
theorem toGF2_colSwap (hN : N ≤ 32) (X : Mat) (m n : Fin N) :
    (colSwap X m n).toGF2 N = X.toGF2 N * Matrix.swap (ZMod 2) m n := by
  ext i j
  have hj : j.val < 32 := j.isLt.trans_le hN
  by_cases hm : j = m
  · subst hm
    rw [Matrix.mul_swap_apply_left]
    exact toGF2_congr (by simp [cell_colSwap, hj])
  · by_cases hn : j = n
    · subst hn
      rw [Matrix.mul_swap_apply_right]
      exact toGF2_congr (by simp [cell_colSwap, hj, Fin.val_inj, hm])
    · rw [Matrix.mul_swap_of_ne hm hn]
      exact toGF2_congr (by simp [cell_colSwap, hj, Fin.val_inj, hm, hn])

/-- A column addition is the library's transvection on the right (R137). -/
theorem toGF2_colAdd (hN : N ≤ 32) (X : Mat) (m n : Fin N) :
    (colAdd X m n).toGF2 N = X.toGF2 N * Matrix.transvection m n 1 := by
  ext i j
  have hj : j.val < 32 := j.isLt.trans_le hN
  by_cases hn : j = n
  · subst hn
    rw [Matrix.mul_transvection_apply_same, one_mul]
    exact toGF2_eq_add_of_cell_eq_xor (by simp [cell_colAdd, hj])
  · rw [Matrix.mul_transvection_apply_of_ne _ _ _ _ hn]
    exact toGF2_congr (by simp [cell_colAdd, hj, Fin.val_inj, hn])

end ToGF2

/-- Settles O21: over the field of two elements, each side is the library's elementary matrix times X. -/
theorem leftActionIsRowOperation : Obligations.LeftActionIsRowOperation := by
  intro N m n X hN hX hm hn hne
  lift m to Fin N using hm
  lift n to Fin N using hn
  constructor
  · refine matMul_eq_of_toGF2 hN hX (inRegion_rowSwap hX m.isLt n.isLt) ?_
    rw [toGF2_swapMat hN, toGF2_rowSwap hN]
  · refine matMul_eq_of_toGF2 hN hX (inRegion_rowAdd hX m.isLt n) ?_
    rw [toGF2_addMat hN (Fin.val_ne_iff.1 hne), toGF2_rowAdd hN]

/-- Settles O22: over the field of two elements, each side is X times the library's elementary matrix, and the swap
matrix is symmetric in its indices. -/
theorem rightActionIsColumnOperation : Obligations.RightActionIsColumnOperation := by
  intro N m n X hN hX hm hn hne
  lift m to Fin N using hm
  lift n to Fin N using hn
  have hswap := inRegion_swapMat m.isLt n.isLt
  refine ⟨matMul_eq_of_toGF2 hN hswap (inRegion_colSwap hX m.isLt n.isLt) ?_,
    matMul_eq_of_toGF2 hN (inRegion_addMat m.isLt n.isLt) (inRegion_colAdd hX m n.isLt) ?_,
    Mat.eq_of_toGF2_eq hswap (inRegion_swapMat n.isLt m.isLt) ?_⟩
  · rw [toGF2_swapMat hN, toGF2_colSwap hN]
  · rw [toGF2_addMat hN (Fin.val_ne_iff.1 hne), toGF2_colAdd hN]
  · rw [toGF2_swapMat hN, toGF2_swapMat hN, Matrix.swap_comm]

/-- Settles O23: a swap matrix is its own inverse, and a transvection by 1 is undone by another, as 1 + 1 = 0. -/
theorem elementarySelfInverse : Obligations.ElementarySelfInverse := by
  intro N m n hN hm hn hne
  lift m to Fin N using hm
  lift n to Fin N using hn
  have hne : m ≠ n := Fin.val_ne_iff.1 hne
  constructor
  · refine matMul_eq_of_toGF2 hN (inRegion_swapMat m.isLt n.isLt) (inRegion_ident N) ?_
    rw [toGF2_swapMat hN, toGF2_ident hN, Matrix.swap_mul_self]
  · refine matMul_eq_of_toGF2 hN (inRegion_addMat m.isLt n.isLt) (inRegion_ident N) ?_
    rw [toGF2_addMat hN hne, toGF2_ident hN, Matrix.transvection_mul_transvection_same _ _ hne,
      CharTwo.add_self_eq_zero, Matrix.transvection_zero]

end Sys2Proof.Machine

/-! SUPPORT. The statements of 42_composer.md: how a command whose checks pass completes (R206), LOGCLR (R160), the
errors of COMPOSE (R155) and COMPOSE with K = 0 (R157), APPLY as a row operation that is logged (R136, R150 to R152),
COMPOSE as the operations drawn in turn (R153 to R158), and a register that follows the log (R156). -/

namespace Sys2Proof.Machine

/-! ### A command whose checks pass -/

/-- A command whose checks pass completes with its writes (R206). -/
theorem exec_of_commandCheck_none {i : Instr} {s : State} (h : commandCheck i s = .none) :
    exec i s = .next ((commandWrites i s).finish .none) := by
  rw [exec_eq_unlessError, h, unlessError_none]

/-- The writes of a command, completed, are a success of it (R206). -/
theorem completed_commandWrites (i : Instr) (s : State) : Completed .none s ((commandWrites i s).finish .none) :=
  completed_finish (commandWrites_err i s) (commandWrites_haz i s)

/-- The writes of a command, completed, leave what no command writes (R22). -/
theorem untouched_commandWrites (i : Instr) (s : State) : Untouched s ((commandWrites i s).finish .none) :=
  (commandWrites_untouched i s).finish .none

/-- The writes of a command to one matrix register, completed, leave the others (R22). -/
theorem matsKeptExcept_commandWrites {i : Instr} {rd : RegNo} (s : State) (h : destM i = some rd) :
    MatsKeptExcept rd s ((commandWrites i s).finish .none) := fun _ hr =>
  commandWrites_M_of_ne s fun hdest => hr (Option.some.inj (hdest.symm.trans h))

/-! ### LOGCLR -/

/-- Settles O31: every index of the log window is at or above a LOGLEN of 0, and a completed command is idle. -/
theorem logclrEmptiesLog : Obligations.LogclrEmptiesLog := by
  intro s
  have hread (i : Fin 1024) : logWindow (s.logClear.finish .none) i = 0 := logWindow_of_ge (Nat.zero_le _)
  exact ⟨_, rfl, rfl, fun i => memRead_of_idle (t := .logEntry i) rfl (hread i), rfl, rfl, rfl, rfl,
    completed_commandWrites .logclr s, untouched_commandWrites .logclr s⟩

/-! ### The errors of COMPOSE -/

/-- Operations on fewer than two rows are DEGENERATE, whatever the log holds (R155). -/
theorem composeCheck_degenerate {s : State} (hN : s.N < 2) (hK : 0 < s.iter.toNat) :
    composeCheck s = .degenerate := if_pos ⟨hN, hK⟩

/-- Otherwise operations that the log cannot hold are LOG_FULL (R155). -/
theorem composeCheck_full {s : State} (h : 2 ≤ s.N ∨ s.iter.toNat = 0) (hlog : 1024 < s.loglen + s.iter.toNat) :
    composeCheck s = .logFull := by
  rw [composeCheck, if_neg (by omega)]
  exact if_pos hlog

/-- Settles O29: the checks give the error, and an error has no other effect. -/
theorem composeErrorsInOrder : Obligations.ComposeErrorsInOrder := fun rd _ =>
  ⟨fun hN hK => exec_failed_of_commandCheck (i := .compose rd) (composeCheck_degenerate hN hK) nofun,
    fun h hlog => exec_failed_of_commandCheck (i := .compose rd) (composeCheck_full h hlog) nofun⟩

/-! ### COMPOSE with K = 0 -/

/-- Writing a matrix register with what it holds changes nothing. -/
@[simp] theorem State.setM_self (s : State) (r : RegNo) : s.setM r (s.M r) = s := by
  simp [State.setM, State.M]

/-- Appending no entry changes nothing. -/
@[simp] theorem State.logAppend_nil (s : State) : s.logAppend [] = s := by
  simp [State.logAppend]

/-- COMPOSE of no operations writes nothing (R157). -/
theorem composeWrites_of_iter_zero {s : State} (h : s.iter.toNat = 0) (rd : RegNo) : composeWrites s rd = s := by
  have hrun : composeRun s rd = { mat := s.M rd, entries := [], draws := s.draws } := by
    rw [composeRun, h, composeLoop]
  rw [composeWrites, hrun, State.setM_self, State.logAppend_nil]
  rfl

/-- Settles O30: the checks pass at every DIM, and what is completed is the state as it was. -/
theorem composeZeroChangesNothing : Obligations.ComposeZeroChangesNothing := by
  intro rd s hK hlog
  have hcheck : composeCheck s = .none := composeCheck_none.2 ⟨.inr hK, by omega⟩
  refine ⟨_, exec_compose_of_check rd hcheck, completed_commandWrites (.compose rd) s, ?_,
    untouched_commandWrites (.compose rd) s⟩
  rw [composeWrites_of_iter_zero hK]
  exact ⟨rfl, rfl, rfl, rfl, rfl⟩

/-! ### APPLY as a row operation -/

/-- A composer step with a valid entry is its row operation (R136, R151). -/
theorem composerStep_eq_rowOp {N : Nat} {X : Mat} {e : LogEntry} (hN : N ≤ 32) (hX : X.InRegion N)
    (he : e.Valid N) : composerStep N X e = rowOp X e := by
  obtain ⟨hm, hn, hne⟩ := pairValid_iff.1 he.pairValid
  obtain ⟨hswap, hadd⟩ := leftActionIsRowOperation N _ _ X hN hX hm hn hne
  rw [composerStep, elem, rowOp]
  cases e.kind with
  | swap => exact hswap
  | addRow => exact hadd

/-- The entry of SWAP is a row exchange, when its indices fit their fields (R26, R136). -/
theorem rowOp_mkEntry_swap (X : Mat) {m n : Nat} (hm : m < 32) (hn : n < 32) :
    rowOp X (mkEntry .swap m n) = rowSwap X m n := by
  obtain ⟨hm', hn'⟩ := toNat_mkEntry .swap hm hn
  rw [rowOp, hm', hn']
  rfl

/-- The entry of ADD is a row addition, when its indices fit their fields (R26, R136). -/
theorem rowOp_mkEntry_addRow (X : Mat) {m n : Nat} (hm : m < 32) (hn : n < 32) :
    rowOp X (mkEntry .addRow m n) = rowAdd X m n := by
  obtain ⟨hm', hn'⟩ := toNat_mkEntry .addRow hm hn
  rw [rowOp, hm', hn']
  rfl

/-- Row m after rows m and n are exchanged (R136). -/
theorem row_rowSwap_left (X : Mat) {m : Nat} (hm : m < 32) (n : Nat) : (rowSwap X m n).row m = X.row n := by
  rw [row_rowSwap, if_pos hm, if_pos rfl]

/-- Row n after rows m and n are exchanged (R136). -/
theorem row_rowSwap_right (X : Mat) {m n : Nat} (hn : n < 32) (hne : m ≠ n) :
    (rowSwap X m n).row n = X.row m := by
  rw [row_rowSwap, if_pos hn, if_neg hne.symm, if_pos rfl]

/-- The other rows after rows m and n are exchanged (R136). -/
theorem row_rowSwap_of_ne (X : Mat) {m n i : Nat} (hm : i ≠ m) (hn : i ≠ n) :
    (rowSwap X m n).row i = X.row i := by
  rw [row_rowSwap, if_neg hm, if_neg hn, ite_eq_left_iff]
  exact fun hi => (X.row_of_ge (Nat.le_of_not_lt hi)).symm

/-- Row m after row n is added into it (R136). -/
theorem row_rowAdd_self (X : Mat) {m : Nat} (hm : m < 32) (n : Nat) :
    (rowAdd X m n).row m = X.row m ^^^ X.row n := by
  rw [row_rowAdd, if_pos hm, if_pos rfl]

/-- The other rows after row n is added into row m (R136). -/
theorem row_rowAdd_of_ne (X : Mat) {m i : Nat} (n : Nat) (hm : i ≠ m) : (rowAdd X m n).row i = X.row i := by
  rw [row_rowAdd, if_neg hm, ite_eq_left_iff]
  exact fun hi => (X.row_of_ge (Nat.le_of_not_lt hi)).symm

/-- A command whose checks pass and whose writes are those of APPLY completes with the row operation done on M[rd] and
its entry logged, and with everything else as before (R150, R151, R206). -/
theorem exec_applyEntry {i : Instr} {s : State} {rd : RegNo} {e : LogEntry} (hN : s.N ≤ 32)
    (hX : (s.M rd).InRegion s.N) (he : e.Valid s.N) (hcheck : commandCheck i s = .none)
    (hdest : destM i = some rd) (hwrites : commandWrites i s = applyEntry s rd e) :
    ∃ t, exec i s = .next t ∧ t.M rd = rowOp (s.M rd) e ∧ t.log = s.log ++ [e] ∧
      MatsKeptExcept rd s t ∧ t.vecs = s.vecs ∧ t.draws = s.draws ∧ t.status.eq = s.status.eq ∧
      Completed .none s t ∧ Untouched s t := by
  refine ⟨_, exec_of_commandCheck_none hcheck, ?_, ?_, matsKeptExcept_commandWrites s hdest, ?_, ?_, ?_,
    completed_commandWrites i s, untouched_commandWrites i s⟩
  · rw [hwrites, ← composerStep_eq_rowOp hN hX he]
    exact s.setM_M_self rd _
  all_goals rw [hwrites]; rfl

/-- Settles O25: the checks pass, and a composer step with the entry of a valid pair is its row operation. -/
theorem applyActsAndLogs : Obligations.ApplyActsAndLogs := by
  intro rd m n s hN hX hm hn hne hlog
  have hm32 : m < 32 := hm.trans_le hN
  have hn32 : n < 32 := hn.trans_le hN
  have hcheck : applyCheck s m n = .none := applyCheck_none.2 ⟨⟨hm, hn, hne⟩, hlog.ne⟩
  have hvalid (kind : OpKind) : (mkEntry kind m n).Valid s.N := mkEntry_valid kind hN hm hn hne
  constructor
  · obtain ⟨t, ht, hM, hframe⟩ := exec_applyEntry (i := .applySwap rd m n) hN hX (hvalid .swap) hcheck rfl rfl
    rw [rowOp_mkEntry_swap _ hm32 hn32] at hM
    exact ⟨t, ht, hM ▸ row_rowSwap_left _ hm32 n, hM ▸ row_rowSwap_right _ hn32 hne,
      fun _ him hin => hM ▸ row_rowSwap_of_ne _ him hin, hframe⟩
  · obtain ⟨t, ht, hM, hframe⟩ := exec_applyEntry (i := .applyAdd rd m n) hN hX (hvalid .addRow) hcheck rfl rfl
    rw [rowOp_mkEntry_addRow _ hm32 hn32] at hM
    exact ⟨t, ht, hM ▸ row_rowAdd_self _ hm32 n, fun _ him => hM ▸ row_rowAdd_of_ne _ n him, hframe⟩

/-! ### COMPOSE as the operations drawn -/

/-- The draw inputs one operation of COMPOSE leaves: it takes a pair and then, as the mode has it, a kind (R153). -/
def drawOperation (N : Nat) (mode : Mode) (d : Draws) : Draws := (chooseKind mode (drawPair N d).2).2

/-- ChooseKind answers a kind of its mode (R154). -/
theorem chooseKind_admits (mode : Mode) (d : Draws) : mode.Admits (chooseKind mode d).1 := by
  cases mode with
  | add => exact ⟨fun _ => rfl, nofun⟩
  | swap => exact ⟨nofun, fun _ => rfl⟩
  | mixed => exact ⟨nofun, nofun⟩

/-- The loop of COMPOSE records kinds of its mode (R154). -/
theorem composeLoop_admits (N : Nat) (mode : Mode) (k : Nat) (X : Mat) (d : Draws) :
    ∀ e ∈ (composeLoop N mode k X d).entries, mode.Admits e.kind := by
  intro e he
  obtain ⟨p, d', rfl⟩ := composeLoop_entries N mode k X d e he
  exact chooseKind_admits mode d'

/-- The entries of a COMPOSE on two rows or more, or of K = 0, are valid (R158). -/
theorem composeRun_valid {s : State} (hN : s.N ≤ 32) (h : 2 ≤ s.N ∨ s.iter.toNat = 0) (rd : RegNo) :
    ∀ e ∈ (composeRun s rd).entries, e.Valid s.N := by
  rcases h with h2 | hK
  · exact composeLoop_valid h2 hN _ _ _ _
  · rw [composeRun, hK]
    exact List.forall_mem_nil _

/-- Settles O27: the entries are those the loop records, and the draw inputs the iterates of one operation's draws. -/
theorem composeAppliesDrawnOperations : Obligations.ComposeAppliesDrawnOperations := by
  intro rd s hN hdim hlog
  have hM : (composeWrites s rd).M rd = applyAll s.N (s.M rd) (composeRun s rd).entries :=
    (s.setM_M_self rd _).trans (composeLoop_mat ..)
  have hkind := composeLoop_admits s.N s.policy.mode s.iter.toNat (s.M rd) s.draws
  refine ⟨_, (composeRun s rd).entries, fun i => (drawOperation s.N s.policy.mode)^[i] s.draws,
    exec_compose_of_check rd (composeCheck_none.2 ⟨hdim, hlog⟩), composeLoop_length .., composeRun_valid hN hdim rd,
    rfl, (composeLoop_draws ..).symm, fun i hi => ⟨composeLoop_getElem _ _ _ _ _ i hi, ?_⟩,
    fun hadd e he => (hkind e he).1 hadd, fun hswap e he => (hkind e he).2 hswap, hM, rfl,
    matsKeptExcept_commandWrites (i := .compose rd) s rfl, rfl, rfl, completed_commandWrites (.compose rd) s,
    untouched_commandWrites (.compose rd) s⟩
  exact Function.iterate_succ_apply' ..

/-! ### A register that follows the log -/

/-- Every composer command applies a list of operations to its register and appends the same list to the log, when its
checks pass (R151, R153, R156). -/
theorem commandWrites_applies {i : Instr} {b : RegNo} {m n : Nat} (s : State)
    (hi : i = .applyAdd b m n ∨ i = .applySwap b m n ∨ i = .compose b) :
    ∃ es, (commandWrites i s).M b = applyAll s.N (s.M b) es ∧ (commandWrites i s).log = s.log ++ es := by
  rcases hi with rfl | rfl | rfl
  · exact ⟨[mkEntry .addRow m n], s.setM_M_self b _, rfl⟩
  · exact ⟨[mkEntry .swap m n], s.setM_M_self b _, rfl⟩
  · exact ⟨(composeRun s b).entries, (s.setM_M_self b _).trans (composeLoop_mat ..), rfl⟩

/-- Operations applied to a tracking register and appended to the log keep it tracking (R156). -/
theorem Tracks.append {s w : State} {b : RegNo} {X0 : Mat} {es : List LogEntry} (h : Tracks s b X0)
    (hN : w.N = s.N) (hM : w.M b = applyAll s.N (s.M b) es) (hlog : w.log = s.log ++ es) : Tracks w b X0 := by
  unfold Tracks applyAll at *
  rw [hM, hN, hlog, List.foldl_append, h]

/-- Settles O36: a success applies and logs the same operations, and an error changes neither M[b] nor the log. -/
theorem composerKeepsTracking : Obligations.ComposerKeepsTracking := by
  intro b X0 m n s t i h hi ht
  rcases exec_next_cases ht with ⟨-, rfl⟩ | ⟨-, rfl⟩
  · obtain ⟨es, hM, hlog⟩ := commandWrites_applies s hi
    exact h.append (w := (commandWrites i s).finish .none) (commandWrites_N i s) hM hlog
  · exact h

end Sys2Proof.Machine

/-! SUPPORT. The statements of 43_key_verify.md: the key of a log entry by entry (R180), its equivalent computations
(R181), the key as the inverse of the logged operations (R182), VERIFY (R185), and the round trip of the two (R186). -/

namespace Sys2Proof.Machine

/-! ### Elementary matrices of valid entries -/

/-- The matrix of a valid entry on the right is its column operation (R137). -/
theorem matMul_elem_eq_colOp {N : Nat} {X : Mat} {e : LogEntry} (hN : N ≤ 32) (hX : X.InRegion N)
    (he : e.Valid N) : matMul X (elem N e) N = colOp X e := by
  obtain ⟨hm, hn, hne⟩ := pairValid_iff.1 he.pairValid
  obtain ⟨hswap, hadd, -⟩ := rightActionIsColumnOperation N _ _ X hN hX hm hn hne
  rw [elem, colOp]
  cases e.kind with
  | swap => exact hswap
  | addRow => exact hadd

/-- The matrix of a valid entry is its own inverse (R138). -/
theorem matMul_elem_self {N : Nat} {e : LogEntry} (hN : N ≤ 32) (he : e.Valid N) :
    matMul (elem N e) (elem N e) N = ident N := by
  obtain ⟨hm, hn, hne⟩ := pairValid_iff.1 he.pairValid
  obtain ⟨hswap, hadd⟩ := elementarySelfInverse N _ _ hN hm hn hne
  rw [elem]
  cases e.kind with
  | swap => exact hswap
  | addRow => exact hadd

/-- A composer step with a valid entry is undone by the matrix of the entry (R138, R151). -/
theorem matMul_elem_composerStep {N : Nat} {X : Mat} {e : LogEntry} (hN : N ≤ 32) (hX : X.InRegion N)
    (he : e.Valid N) : matMul (elem N e) (composerStep N X e) N = X := by
  rw [composerStep, ← matMulAssociative, matMul_elem_self hN he, matMul_ident_left hX]

/-! ### The key, entry by entry -/

/-- The loop of KEYDERIVE only multiplies on the right, so a left factor of its accumulator stays outside (R180). -/
theorem keyLoop_matMul (N : Nat) (A acc : Mat) (es : List LogEntry) :
    keyLoop N (matMul A acc N) es = matMul A (keyLoop N acc es) N := by
  induction es generalizing acc with
  | nil => rfl
  | cons e es ih => rw [keyLoop, matMulAssociative, ih, keyLoop]

/-- The first applied operation is the leftmost factor of the key (R180). -/
theorem keyOf_cons {N : Nat} {e : LogEntry} (he : e.Valid N) (es : List LogEntry) :
    keyOf N (e :: es) = matMul (elem N e) (keyOf N es) N := by
  have hE : (elem N e).InRegion N := inRegion_elem he
  have hfactor := keyLoop_matMul N (elem N e) (ident N) es
  rw [matMul_ident_right hE] at hfactor
  rw [keyOf, keyLoop, matMul_ident_left hE, hfactor, keyOf]

/-- The key is the product of the entries' matrices in recorded order (R180). -/
theorem keyOf_eq_foldr {N : Nat} {log : List LogEntry} (h : ∀ e ∈ log, e.Valid N) :
    keyOf N log = log.foldr (fun e acc => matMul (elem N e) acc N) (ident N) := by
  induction log with
  | nil => rfl
  | cons e es ih =>
    obtain ⟨he, hes⟩ := List.forall_mem_cons.1 h
    rw [keyOf_cons he, ih hes, List.foldr_cons]

/-! ### The equivalent computations (R181) -/

/-- Column operations in recorded order are the loop of KEYDERIVE (R137, R181). -/
theorem foldl_colOp_eq_keyLoop {N : Nat} {acc : Mat} {es : List LogEntry} (hN : N ≤ 32) (hacc : acc.InRegion N)
    (hes : ∀ e ∈ es, e.Valid N) : es.foldl colOp acc = keyLoop N acc es := by
  induction es generalizing acc with
  | nil => rfl
  | cons e es ih =>
    obtain ⟨he, hes⟩ := List.forall_mem_cons.1 hes
    rw [List.foldl_cons, ← matMul_elem_eq_colOp hN hacc he, keyLoop]
    exact ih (inRegion_matMul acc (inRegion_elem he)) hes

/-- Left multiplications in reverse order make the product in recorded order (R181). -/
theorem keyByReverse_eq_foldr (N : Nat) (log : List LogEntry) :
    keyByReverse N log = log.foldr (fun e acc => matMul (elem N e) acc N) (ident N) := List.foldl_reverse

/-- Settles O33: the first computation is the loop of KEYDERIVE step by step, the second the product it comes to. -/
theorem keyEquivalentComputations : Obligations.KeyEquivalentComputations := fun N log hN hlog =>
  ⟨foldl_colOp_eq_keyLoop hN (inRegion_ident N) hlog, (keyByReverse_eq_foldr N log).trans (keyOf_eq_foldr hlog).symm⟩

/-! ### The key inverts the transform (R182) -/

/-- A list of operations is its first one and then the others (R156). -/
theorem applyAll_cons (N : Nat) (X : Mat) (e : LogEntry) (es : List LogEntry) :
    applyAll N X (e :: es) = applyAll N (composerStep N X e) es := List.foldl_cons ..

/-- Settles O34, by induction on the log: the key of the later operations leaves what the first one made of X0, and the
matrix of the first one undoes it. -/
theorem keyInvertsTransform : Obligations.KeyInvertsTransform := by
  intro N log X0 hN hlog hX0
  induction log generalizing X0 with
  | nil => exact matMul_ident_left hX0
  | cons e es ih =>
    obtain ⟨he, hes⟩ := List.forall_mem_cons.1 hlog
    have hstep : (composerStep N X0 e).InRegion N := inRegion_matMul (elem N e) hX0
    calc matMul (keyOf N (e :: es)) (applyAll N X0 (e :: es)) N
        = matMul (elem N e) (matMul (keyOf N es) (applyAll N (composerStep N X0 e) es) N) N := by
          rw [keyOf_cons he, matMulAssociative, applyAll_cons]
      _ = matMul (elem N e) (composerStep N X0 e) N := by rw [ih _ hes hstep]
      _ = X0 := matMul_elem_composerStep hN hX0 he

/-! ### The two commands -/

/-- KEYDERIVE completes with the key of the log in M[rd] and changes nothing else (R180). -/
theorem exec_keyderive (rd : RegNo) (s : State) :
    ∃ t, exec (.keyderive rd) s = .next t ∧ t.M rd = keyOf s.N s.log ∧
      MatsKeptExcept rd s t ∧ RestKept s t ∧ Completed .none s t ∧ Untouched s t :=
  exec_setM (i := .keyderive rd) rfl rfl

/-- VERIFY completes with the product in M[rd] and its comparison with the original, as it was, in EQ (R185). -/
theorem exec_verify (rd ra rb rc : RegNo) (s : State) :
    ∃ t, exec (.verify rd ra rb rc) s = .next t ∧ t.M rd = matMul (s.M ra) (s.M rb) s.N ∧
      t.status.eq = matEq (t.M rd) (s.M rc) s.N ∧
      MatsKeptExcept rd s t ∧ t.vecs = s.vecs ∧ t.log = s.log ∧ t.draws = s.draws ∧
      Completed .none s t ∧ Untouched s t := by
  have hM : (s.setM rd (recovered s ra rb)).M rd = recovered s ra rb := s.setM_M_self rd _
  exact ⟨_, exec_of_commandCheck_none (i := .verify rd ra rb rc) rfl, hM,
    congrArg (fun R => matEq R (s.M rc) s.N) hM.symm,
    matsKeptExcept_commandWrites (i := .verify rd ra rb rc) s rfl, rfl, rfl, rfl,
    completed_commandWrites (.verify rd ra rb rc) s, untouched_commandWrites (.verify rd ra rb rc) s⟩

/-- Settles O32: the key the command writes is the product in recorded order. -/
theorem keyderiveIsRecordedProduct : Obligations.KeyderiveIsRecordedProduct := by
  intro rd s _ hlog
  rw [← keyOf_eq_foldr hlog]
  exact exec_keyderive rd s

/-- Settles O35: the product by its cells, and EQ as `MatEq` of matrices in the region. -/
theorem verifyComparesRecovered : Obligations.VerifyComparesRecovered := by
  intro rd ra rb rc s hdata
  obtain ⟨t, ht, hM, heq, hframe⟩ := exec_verify rd ra rb rc s
  have hregion : (t.M rd).InRegion s.N := hM ▸ inRegion_matMul (s.M ra) (hdata.1 rb)
  have hcells : t.status.eq = true ↔ SameCells s.N (t.M rd) (s.M rc) :=
    heq ▸ matEq_iff_sameCells hregion (hdata.1 rc)
  exact ⟨t, ht, fun i j => hM ▸ cellNat_matMul_eq_productMod2 (s.M ra) (hdata.1 rb) i j, hcells,
    hcells.trans (sameCells_iff_eq hregion (hdata.1 rc)), hframe⟩

/-- A matrix equals itself (R108). -/
@[simp] theorem matEq_self (A : Mat) (N : Nat) : matEq A A N = true := (matEq_iff A A N).2 fun _ _ => rfl

/-- Settles O37: KEYDERIVE leaves M[b], M[o] and DIM, so VERIFY multiplies the key by what the log makes of X0, which
is X0 (R182), and compares it with X0. -/
theorem roundTripVerifies : Obligations.RoundTripVerifies := by
  intro b o k d X0 s hinv hX0 htracks ho hkb hko
  obtain ⟨t, ht, hkey, hmats, -, -, htouch⟩ := exec_keyderive k s
  obtain ⟨u, hu, hM, heq, -, -, -, -, hdone, -⟩ := exec_verify d k b o t
  have hrecovered : u.M d = X0 := by
    have hN : t.N = s.N := congrArg BitVec.toNat htouch.dim
    rw [hM, hN, hkey, hmats b hkb.symm, htracks]
    exact keyInvertsTransform s.N s.log X0 hinv.dimOk.2 hinv.logOk.2 hX0
  have hverified : u.status.eq = true := by rw [heq, hrecovered, hmats o hko.symm, ho, matEq_self]
  exact ⟨t, ht, u, hu, hverified, hrecovered, hdone.errcode⟩

end Sys2Proof.Machine

/-! SUPPORT. The statements of 60_exceptions.md: a CMD write (R205), the interrupt output (R210), an error as its
completion and nothing else (R203), and that the Engine's turn completes every pending word (R202, R206). -/

namespace Sys2Proof.Machine

/-! ### Command acceptance and the interrupt output (R205, R210) -/

/-- A CMD write is an acceptance that BUSY blocks, as it blocks the other guarded writes (R205). -/
theorem writeTarget_cmd (s : State) (d : Word) : writeTarget s d .cmd = guardedWrite s (s.accept d) := rfl

/-- Settles O52: idle, the write is the acceptance; while BUSY it sets HAZ. -/
theorem cmdWriteAcceptance : Obligations.CmdWriteAcceptance := by
  intro s d
  have hwrite : memWrite s 0x0010 .word d = (.write .okay, guardedWrite s (s.accept d)) := memWrite_address s .cmd d
  rw [hwrite]
  constructor
  · intro hidle
    rw [guardedWrite_of_idle hidle]
    rfl
  · intro hbusy
    rw [guardedWrite_of_busy hbusy]
    rfl

/-- Settles O43: the gates of `State.irq`, read as propositions. -/
theorem irqIsEnabledStatus : Obligations.IrqIsEnabledStatus := by
  refine ⟨fun s => ?_, rfl⟩
  rw [State.irq, Bool.or_eq_true, Bool.or_eq_true, Bool.and_eq_true, Bool.and_eq_true, Bool.and_eq_true, or_assoc]

/-! ### Errors (R203, R206) -/

/-- A completion with an error, field by field (R203, R206). -/
theorem State.finish_of_error {c : ErrCode} (hc : c ≠ .none) (s : State) :
    s.finish c =
      { s with
        pendV := false
        status :=
          { busy := false, done := true, err := true, eq := s.status.eq, haz := s.status.haz, errcode := c } } := by
  simp [State.finish, hc]

/-- Everything the Engine's turn can leave of a pending word: the writes of its command completed with NONE, or the
completion with an error of the state as it was (R203, R206). -/
theorem engineTurn_next_cases {s t : State} (hv : s.pendV = true) (ht : engineTurn s = .next t) :
    (∃ i, t = (commandWrites i s).finish .none) ∨ ∃ c, c ≠ .none ∧ t = s.finish c := by
  rcases engineTurn_pending hv with ⟨i, -, hexec⟩ | ⟨-, hreject⟩
  · rw [hexec] at ht
    rcases exec_next_cases ht with ⟨-, hdone⟩ | ⟨hc, herror⟩
    · exact .inl ⟨i, hdone⟩
    · exact .inr ⟨_, hc, herror⟩
  · rw [hreject] at ht
    cases ht
    exact .inr ⟨.reservedField, nofun, rfl⟩

/-- Settles O38: a turn whose code is not NONE is an error, which is its completion and no more. -/
theorem errorsArePrecise : Obligations.ErrorsArePrecise := by
  intro s t hv ht hcode
  rcases engineTurn_next_cases hv ht with ⟨i, rfl⟩ | ⟨c, hc, rfl⟩
  · exact absurd (State.finish_errcode _ _) hcode
  · exact s.finish_of_error hc

/-! ### The Engine step (R202, R206) -/

/-- A pending word StaticCheck rejects completes with its code and nothing else (R202, R203, R206). -/
theorem engineTurn_of_staticCheck {s : State} (hv : s.pendV = true) (h : staticCheck s.pend ≠ .none) :
    engineTurn s = .next (s.finish (staticCheck s.pend)) := by
  by_cases hop : s.pend.op ≤ 0xC
  · rw [staticCheck_of_table hop] at h ⊢
    by_cases hclear : s.pend &&& zeroMask s.pend.op = 0
    · exact absurd (if_pos hclear) h
    · have hreject : decode s.pend = .error .reservedField := (decode_of_table hop).trans (if_neg hclear)
      rw [if_neg hclear]
      rcases engineTurn_pending hv with ⟨i, hi, -⟩ | ⟨-, hturn⟩
      · rw [hreject] at hi; cases hi
      · exact hturn
  · have hres : 0xD ≤ s.pend.op := Nat.lt_of_not_le hop
    rw [staticCheck_of_reserved hres, engineTurn_of_decode hv (decode_of_reserved hres), exec_reservedCommand]

/-- Settles O39: a word StaticCheck rejects completes with its code, and every other by its command's own ending. -/
theorem engineStepCompletes : Obligations.EngineStepCompletes := by
  intro s
  refine ⟨engineTurn_idle, fun hv => ?_, ?_⟩
  · by_cases hcheck : staticCheck s.pend = .none
    · obtain ⟨t, c, ht, hdone, hkept⟩ := engineTurn_completes hv
      exact ⟨t, c, ht, hdone, hkept, fun hne => absurd hcheck hne⟩
    · have hfailed := failed_finish (staticCheck s.pend) s
      exact ⟨_, _, engineTurn_of_staticCheck hv hcheck, hfailed.completed, hfailed.untouched, fun _ => rfl⟩
  · obtain ⟨t, ht, -⟩ := step_takes_event s
    exact ⟨t, ht⟩

end Sys2Proof.Machine

/-! SUPPORT. The statements of 70_reset_and_hazards.md: a reset event (R230), a DIM write (R30, R233), and the
transactions that set and clear HAZ (R239). -/

namespace Sys2Proof.Machine

/-! ### Reset (R230) -/

/-- Settles O57: the step is the reset event, taken with the later events left. -/
theorem resetEventRestoresState : Obligations.ResetEventRestoresState := by
  intro s es h
  have hstep : step s = .next (s.setEvents es).resetEvent := by rw [step_of_reset h, State.eventTaken_of_cons h]
  exact ⟨_, hstep, rfl, rfl, rfl, rfl⟩

/-! ### A new run (R30, R233) -/

/-- A legal DIM value begins a new run (R30). -/
theorem writeDim_of_legal {d : Word} (h : 1 ≤ d.toNat ∧ d.toNat ≤ 32) (s : State) :
    writeDim s d = s.newRun (d.setWidth 6) := if_pos h

/-- DIM's six bits hold every legal value (R30). -/
theorem toNat_setWidth_dim {d : Word} (h : d.toNat ≤ 32) : (d.setWidth 6).toNat = d.toNat := by
  rw [BitVec.toNat_setWidth, Nat.mod_eq_of_lt (by omega)]

/-- A legal value is read back from DIM as it was written (R30). -/
theorem setWidth_setWidth_dim {d : Word} (h : d.toNat ≤ 32) : (d.setWidth 6).setWidth 32 = d := by
  apply BitVec.eq_of_toNat_eq
  rw [BitVec.toNat_setWidth, toNat_setWidth_dim h, Nat.mod_eq_of_lt d.isLt]

/-- Settles O49: the write is guarded by BUSY, and while idle it begins a new run or is ignored. -/
theorem dimWriteBeginsRun : Obligations.DimWriteBeginsRun := by
  intro s d
  have hwrite : memWrite s 0x0014 .word d = (.write .okay, guardedWrite s (writeDim s d)) := memWrite_address s .dim d
  refine ⟨fun hb => ?_, fun hb hlo hhi => ?_, fun hb hd => ?_⟩
  · rwa [guardedWrite_of_busy hb] at hwrite
  · rw [guardedWrite_of_idle hb, writeDim_of_legal ⟨hlo, hhi⟩] at hwrite
    exact ⟨_, hwrite, toNat_setWidth_dim hhi, s.newRun_M _, s.newRun_V _, rfl, rfl, rfl,
      memRead_register (x := .dim) rfl (setWidth_setWidth_dim hhi)⟩
  · rwa [guardedWrite_of_idle hb, writeDim_of_illegal (by omega)] at hwrite

/-! ### What sets and clears HAZ (R239) -/

/-- The targets whose writes BUSY blocks (R30 to R32, R55, R56, R205). -/
def Target.isGuarded : Target → Bool
  | .cmd | .dim | .iter | .policy | .matrixRow _ _ | .vector _ => true
  | .id | .param | .ctrl | .status | .loglen | .logEntry _ => false

/-- The writes of a target that break a BUSY rule are those BUSY blocks (R54, R239). -/
theorem breaksBusyRule_write_address_iff (t : Target) (d : Word) :
    BreaksBusyRule (.write t.address .word d) ↔ t.isGuarded = true := by
  simp only [BreaksBusyRule, inMatrixWindow, inVectorWindow]
  cases t with
  | matrixRow r i =>
    rw [Target.address_matrixRow_toNat]
    exact iff_of_true (by omega) rfl
  | vector r =>
    rw [Target.address_vector_toNat]
    exact iff_of_true (by omega) rfl
  | logEntry i =>
    rw [Target.address_logEntry_toNat]
    exact iff_of_false (by omega) Bool.false_ne_true
  | _ => decide

/-- The reads of a target that break a BUSY rule are those of the windows (R54, R239). -/
theorem breaksBusyRule_read_address_iff (t : Target) : BreaksBusyRule (.read t.address .word) ↔ t.isWindow = true := by
  refine ⟨fun h => ?_, breaksBusyRule_read_address⟩
  simp only [BreaksBusyRule, inMatrixWindow, inVectorWindow, inLogWindow] at h
  cases t with
  | matrixRow | vector | logEntry => rfl
  | _ => revert h; decide

/-- The write of a target that clears HAZ is that of STATUS with bit 4 set (R33, R54). -/
theorem clearsHaz_address_iff (t : Target) (d : Word) :
    ClearsHaz (.write t.address .word d) ↔ t = .status ∧ d.getLsbD 4 = true := by
  have haddress : t.address.toNat = 0x0C ↔ t = .status := by
    refine ⟨fun h => ?_, fun h => by rw [h]; rfl⟩
    have haddr : t.address = Target.status.address := BitVec.eq_of_toNat_eq h
    exact Option.some.inj ((target_address t).symm.trans (haddr ▸ target_address .status))
  rw [ClearsHaz, haddress]

/-- A word-aligned offset a 32-bit transaction does not reach is unmapped (R52 to R54). -/
theorem not_isMapped_of_route_none {a : Addr} (h : route a .word = none) (ha : a.toNat % 4 = 0) : ¬ isMapped a := by
  intro hmap
  obtain ⟨t, ht⟩ := (exists_target_iff_isMapped a).2 hmap
  exact absurd (h.symm.trans (route_eq_some_iff.2 ⟨rfl, ha, ht⟩)) nofun

/-- A transaction that goes nowhere breaks no BUSY rule and does not clear HAZ (R52, R53, R239). -/
theorem neither_breaks_nor_clears_of_route_none {a : Addr} {size : AccessSize} (h : route a size = none) :
    ¬ BreaksBusyRule (.read a size) ∧
      ∀ d, ¬ BreaksBusyRule (.write a size d) ∧ ¬ ClearsHaz (.write a size d) := by
  cases size with
  | byte | half => exact ⟨id, fun _ => ⟨id, id⟩⟩
  | word =>
    have hunmapped := not_isMapped_of_route_none h
    simp only [isMapped, inMatrixWindow, inVectorWindow, inLogWindow] at hunmapped
    simp only [BreaksBusyRule, ClearsHaz, inMatrixWindow, inVectorWindow, inLogWindow]
    exact ⟨by omega, fun d => ⟨by omega, fun ⟨ha, _⟩ => by omega⟩⟩

/-- No transaction both clears HAZ and breaks a BUSY rule: STATUS may be written at any time (R58, R239). -/
theorem not_breaksBusyRule_of_clearsHaz {tr : Transaction} (h : ClearsHaz tr) : ¬ BreaksBusyRule tr := by
  intro hb
  cases tr with
  | read a size => exact h
  | write a size d =>
    cases size with
    | byte | half => exact h
    | word =>
      obtain ⟨ha, -⟩ := h
      simp only [BreaksBusyRule, inMatrixWindow, inVectorWindow] at hb
      omega

/-- HAZ after a read: set when a window was read while BUSY, and otherwise as before (R55 to R57). -/
theorem readTarget_haz (s : State) (t : Target) :
    (readTarget s t).2.status.haz = (s.status.haz || (t.isWindow && s.status.busy)) := by
  rw [readTarget_state]
  cases t.isWindow && s.status.busy with
  | false => exact (Bool.or_false _).symm
  | true => exact (Bool.or_true _).symm

/-- A guarded write that leaves HAZ alone while idle sets it exactly while BUSY (R30 to R32, R55, R56, R205). -/
theorem guardedWrite_haz {s w : State} (hw : w.status.haz = s.status.haz) :
    (guardedWrite s w).status.haz = (s.status.haz || s.status.busy) := by
  cases hb : s.status.busy with
  | false => rw [guardedWrite_of_idle hb, hw, Bool.or_false]
  | true => rw [guardedWrite_of_busy hb, State.setHaz_haz, Bool.or_true]

/-- A DIM write while idle leaves HAZ (R233). -/
theorem writeDim_haz (s : State) (d : Word) : (writeDim s d).status.haz = s.status.haz := by
  unfold writeDim
  split <;> rfl

/-- A row write while idle leaves HAZ (R55). -/
theorem writeMatrixRow_haz (s : State) (r : RegNo) (i : Fin 32) (d : Word) :
    (writeMatrixRow s r i d).status.haz = s.status.haz := by
  unfold writeMatrixRow
  split <;> rfl

/-- HAZ after a write BUSY blocks: set exactly while BUSY (R239). -/
theorem writeTarget_haz_of_guarded {t : Target} (ht : t.isGuarded = true) (s : State) (d : Word) :
    (writeTarget s d t).status.haz = (s.status.haz || s.status.busy) := by
  cases t with
  | cmd => exact guardedWrite_haz (s.accept_haz d)
  | dim => exact guardedWrite_haz (writeDim_haz s d)
  | matrixRow r i => exact guardedWrite_haz (writeMatrixRow_haz s r i d)
  | iter | policy | vector => exact guardedWrite_haz rfl
  | _ => cases ht

/-- HAZ after any other write: cleared by a 1 to its bit of STATUS, and otherwise as before (R33, R57, R58). -/
theorem writeTarget_haz_of_not_guarded {t : Target} (ht : t.isGuarded = false) (s : State) (d : Word) :
    (writeTarget s d t).status.haz = (s.status.haz && !(decide (t = .status) && d.getLsbD 4)) := by
  cases t with
  | status => rfl
  | id | param | ctrl | loglen | logEntry => exact (Bool.and_true _).symm
  | _ => cases ht

/-- HAZ after a transaction: it was set and is not cleared, or a BUSY rule is broken now (R239). -/
theorem transact_haz_iff (s : State) (tr : Transaction) :
    (transact s tr).status.haz = true ↔
      (s.status.haz = true ∧ ¬ ClearsHaz tr) ∨ (s.status.busy = true ∧ BreaksBusyRule tr) := by
  cases tr with
  | read a size =>
    rw [transact, State.answer_status]
    rcases access_cases a size with ⟨t, rfl, rfl⟩ | hnone
    · rw [memRead_address, readTarget_haz, breaksBusyRule_read_address_iff]
      simp [ClearsHaz, and_comm]
    · obtain ⟨hbreaks, -⟩ := neither_breaks_nor_clears_of_route_none hnone
      rw [memRead_of_route_none hnone]
      simp [ClearsHaz, hbreaks]
  | write a size d =>
    rw [transact, State.answer_status]
    rcases access_cases a size with ⟨t, rfl, rfl⟩ | hnone
    · rw [memWrite_address, breaksBusyRule_write_address_iff, clearsHaz_address_iff]
      cases ht : t.isGuarded with
      | true =>
        have hne : t ≠ .status := by rintro rfl; cases ht
        simp [writeTarget_haz_of_guarded ht, hne]
      | false => simp [writeTarget_haz_of_not_guarded ht, imp_iff_not_or]
    · obtain ⟨hbreaks, hclears⟩ := (neither_breaks_nor_clears_of_route_none hnone).2 d
      rw [memWrite_of_route_none hnone]
      simp [hbreaks, hclears]

/-- The Engine's turn leaves HAZ, with a command pending or without one (R206, R239). -/
theorem engineTurn_haz {s t : State} (h : engineTurn s = .next t) : t.status.haz = s.status.haz := by
  cases hv : s.pendV with
  | false =>
    rw [engineTurn_idle hv] at h
    cases h
    rfl
  | true =>
    obtain ⟨u, c, hu, hdone, -⟩ := engineTurn_completes hv
    rw [hu] at h
    cases h
    exact hdone.haz

/-- Settles O54: a transaction breaks a BUSY rule, clears HAZ or does neither, and never both. -/
theorem hazSetAndClearedExactly : Obligations.HazSetAndClearedExactly := by
  refine ⟨fun s tr hclear => ?_, fun s tr hset => ?_, fun _ _ => engineTurn_haz, fun _ => rfl⟩
  · simp [transact_haz_iff, hclear]
  · rw [← Bool.not_eq_true, transact_haz_iff, not_or]
    constructor
    · rintro ⟨hkept, -⟩
      by_contra hnot
      exact hkept ⟨hset, hnot⟩
    · intro hc
      exact ⟨fun ⟨_, hnot⟩ => hnot hc, fun ⟨_, hbreaks⟩ => not_breaksBusyRule_of_clearsHaz hc hbreaks⟩

end Sys2Proof.Machine
